-- ==== Sys2Proof/Word.lean ====
section
/-! DEFINITION. The two word types of 00_scope.md R7: bytes (registers, memory cells) and 16-bit words (PC, addresses).
All arithmetic on them is `BitVec` arithmetic, which is the `u8` and `u16` of R8: modulo 256 and modulo 65536. -/

namespace Sys2Proof

/-- A byte, 0..255 (R8): a memory cell, or one of `A`, `X`, `Y`, `S`, `P`. -/
abbrev Byte := BitVec 8

/-- A 16-bit word, 0..65535 (R8): `PC`, an effective address, an instruction's word operand. -/
abbrev Addr := BitVec 16

end Sys2Proof
end

