-- ==== Sys2Proof/Syntax.lean ====
section
/-! DEFINITION. The instructions: one constructor per row of spec/opcode_table.json (30_encoding.md R110), 114 in all.
A constructor's fields are the instruction's operand bytes (R80, R81): none in format F1, the byte `d` in format F2, the
word `w` (`a16 = hi:lo`) in format F3. -/

namespace Sys2Proof

/-- An instruction of the block: an opcode of R110 with its operand. -/
inductive Instr where
  -- Loads and transfers
  /-- 0xA9 `LDA #$nn` (R161). -/
  | ldaImm (d : Byte)
  /-- 0xA5 `LDA $nn` (R161). -/
  | ldaZp (d : Byte)
  /-- 0xB5 `LDA $nn,X` (R161). -/
  | ldaZpX (d : Byte)
  /-- 0xAD `LDA $nnnn` (R161). -/
  | ldaAbs (w : Addr)
  /-- 0xBD `LDA $nnnn,X` (R161). -/
  | ldaAbsX (w : Addr)
  /-- 0xB9 `LDA $nnnn,Y` (R161). -/
  | ldaAbsY (w : Addr)
  /-- 0xA1 `LDA ($nn,X)` (R161). -/
  | ldaIndX (d : Byte)
  /-- 0xB1 `LDA ($nn),Y` (R161). -/
  | ldaIndY (d : Byte)
  /-- 0xA2 `LDX #$nn` (R162). -/
  | ldxImm (d : Byte)
  /-- 0xA6 `LDX $nn` (R162). -/
  | ldxZp (d : Byte)
  /-- 0xB6 `LDX $nn,Y` (R162). -/
  | ldxZpY (d : Byte)
  /-- 0xAE `LDX $nnnn` (R162). -/
  | ldxAbs (w : Addr)
  /-- 0xBE `LDX $nnnn,Y` (R162). -/
  | ldxAbsY (w : Addr)
  /-- 0xA0 `LDY #$nn` (R163). -/
  | ldyImm (d : Byte)
  /-- 0xA4 `LDY $nn` (R163). -/
  | ldyZp (d : Byte)
  /-- 0xB4 `LDY $nn,X` (R163). -/
  | ldyZpX (d : Byte)
  /-- 0xAC `LDY $nnnn` (R163). -/
  | ldyAbs (w : Addr)
  /-- 0xBC `LDY $nnnn,X` (R163). -/
  | ldyAbsX (w : Addr)
  /-- 0xAA `TAX` (R164). -/
  | tax
  -- Arithmetic and compare
  /-- 0x69 `ADC #$nn` (R181). -/
  | adcImm (d : Byte)
  /-- 0x65 `ADC $nn` (R181). -/
  | adcZp (d : Byte)
  /-- 0x75 `ADC $nn,X` (R181). -/
  | adcZpX (d : Byte)
  /-- 0x6D `ADC $nnnn` (R181). -/
  | adcAbs (w : Addr)
  /-- 0x7D `ADC $nnnn,X` (R181). -/
  | adcAbsX (w : Addr)
  /-- 0x79 `ADC $nnnn,Y` (R181). -/
  | adcAbsY (w : Addr)
  /-- 0x61 `ADC ($nn,X)` (R181). -/
  | adcIndX (d : Byte)
  /-- 0x71 `ADC ($nn),Y` (R181). -/
  | adcIndY (d : Byte)
  /-- 0xC9 `CMP #$nn` (R182). -/
  | cmpImm (d : Byte)
  /-- 0xC5 `CMP $nn` (R182). -/
  | cmpZp (d : Byte)
  /-- 0xD5 `CMP $nn,X` (R182). -/
  | cmpZpX (d : Byte)
  /-- 0xCD `CMP $nnnn` (R182). -/
  | cmpAbs (w : Addr)
  /-- 0xDD `CMP $nnnn,X` (R182). -/
  | cmpAbsX (w : Addr)
  /-- 0xD9 `CMP $nnnn,Y` (R182). -/
  | cmpAbsY (w : Addr)
  /-- 0xC1 `CMP ($nn,X)` (R182). -/
  | cmpIndX (d : Byte)
  /-- 0xD1 `CMP ($nn),Y` (R182). -/
  | cmpIndY (d : Byte)
  /-- 0xE0 `CPX #$nn` (R183). -/
  | cpxImm (d : Byte)
  /-- 0xE4 `CPX $nn` (R183). -/
  | cpxZp (d : Byte)
  /-- 0xEC `CPX $nnnn` (R183). -/
  | cpxAbs (w : Addr)
  /-- 0xC0 `CPY #$nn` (R184). -/
  | cpyImm (d : Byte)
  /-- 0xC4 `CPY $nn` (R184). -/
  | cpyZp (d : Byte)
  /-- 0xCC `CPY $nnnn` (R184). -/
  | cpyAbs (w : Addr)
  -- Logical
  /-- 0x29 `AND #$nn` (R200). -/
  | andImm (d : Byte)
  /-- 0x25 `AND $nn` (R200). -/
  | andZp (d : Byte)
  /-- 0x35 `AND $nn,X` (R200). -/
  | andZpX (d : Byte)
  /-- 0x2D `AND $nnnn` (R200). -/
  | andAbs (w : Addr)
  /-- 0x3D `AND $nnnn,X` (R200). -/
  | andAbsX (w : Addr)
  /-- 0x39 `AND $nnnn,Y` (R200). -/
  | andAbsY (w : Addr)
  /-- 0x21 `AND ($nn,X)` (R200). -/
  | andIndX (d : Byte)
  /-- 0x31 `AND ($nn),Y` (R200). -/
  | andIndY (d : Byte)
  /-- 0x49 `EOR #$nn` (R201). -/
  | eorImm (d : Byte)
  /-- 0x45 `EOR $nn` (R201). -/
  | eorZp (d : Byte)
  /-- 0x55 `EOR $nn,X` (R201). -/
  | eorZpX (d : Byte)
  /-- 0x4D `EOR $nnnn` (R201). -/
  | eorAbs (w : Addr)
  /-- 0x5D `EOR $nnnn,X` (R201). -/
  | eorAbsX (w : Addr)
  /-- 0x59 `EOR $nnnn,Y` (R201). -/
  | eorAbsY (w : Addr)
  /-- 0x41 `EOR ($nn,X)` (R201). -/
  | eorIndX (d : Byte)
  /-- 0x51 `EOR ($nn),Y` (R201). -/
  | eorIndY (d : Byte)
  /-- 0x09 `ORA #$nn` (R202). -/
  | oraImm (d : Byte)
  /-- 0x05 `ORA $nn` (R202). -/
  | oraZp (d : Byte)
  /-- 0x15 `ORA $nn,X` (R202). -/
  | oraZpX (d : Byte)
  /-- 0x0D `ORA $nnnn` (R202). -/
  | oraAbs (w : Addr)
  /-- 0x1D `ORA $nnnn,X` (R202). -/
  | oraAbsX (w : Addr)
  /-- 0x19 `ORA $nnnn,Y` (R202). -/
  | oraAbsY (w : Addr)
  /-- 0x01 `ORA ($nn,X)` (R202). -/
  | oraIndX (d : Byte)
  /-- 0x11 `ORA ($nn),Y` (R202). -/
  | oraIndY (d : Byte)
  /-- 0x24 `BIT $nn` (R203). -/
  | bitZp (d : Byte)
  /-- 0x2C `BIT $nnnn` (R203). -/
  | bitAbs (w : Addr)
  -- Shifts and rotates
  /-- 0x0A `ASL A` (R221). -/
  | aslAcc
  /-- 0x06 `ASL $nn` (R221). -/
  | aslZp (d : Byte)
  /-- 0x16 `ASL $nn,X` (R221). -/
  | aslZpX (d : Byte)
  /-- 0x0E `ASL $nnnn` (R221). -/
  | aslAbs (w : Addr)
  /-- 0x1E `ASL $nnnn,X` (R221). -/
  | aslAbsX (w : Addr)
  /-- 0x4A `LSR A` (R222). -/
  | lsrAcc
  /-- 0x46 `LSR $nn` (R222). -/
  | lsrZp (d : Byte)
  /-- 0x56 `LSR $nn,X` (R222). -/
  | lsrZpX (d : Byte)
  /-- 0x4E `LSR $nnnn` (R222). -/
  | lsrAbs (w : Addr)
  /-- 0x5E `LSR $nnnn,X` (R222). -/
  | lsrAbsX (w : Addr)
  /-- 0x2A `ROL A` (R223). -/
  | rolAcc
  /-- 0x26 `ROL $nn` (R223). -/
  | rolZp (d : Byte)
  /-- 0x36 `ROL $nn,X` (R223). -/
  | rolZpX (d : Byte)
  /-- 0x2E `ROL $nnnn` (R223). -/
  | rolAbs (w : Addr)
  /-- 0x3E `ROL $nnnn,X` (R223). -/
  | rolAbsX (w : Addr)
  -- Increment and decrement
  /-- 0xE8 `INX` (R240). -/
  | inx
  /-- 0xC8 `INY` (R241). -/
  | iny
  /-- 0xCA `DEX` (R242). -/
  | dex
  /-- 0x88 `DEY` (R243). -/
  | dey
  /-- 0xE6 `INC $nn` (R244). -/
  | incZp (d : Byte)
  /-- 0xF6 `INC $nn,X` (R244). -/
  | incZpX (d : Byte)
  /-- 0xEE `INC $nnnn` (R244). -/
  | incAbs (w : Addr)
  /-- 0xFE `INC $nnnn,X` (R244). -/
  | incAbsX (w : Addr)
  /-- 0xC6 `DEC $nn` (R245). -/
  | decZp (d : Byte)
  /-- 0xD6 `DEC $nn,X` (R245). -/
  | decZpX (d : Byte)
  /-- 0xCE `DEC $nnnn` (R245). -/
  | decAbs (w : Addr)
  /-- 0xDE `DEC $nnnn,X` (R245). -/
  | decAbsX (w : Addr)
  -- Branches
  /-- 0x90 `BCC $tttt` (R261). -/
  | bcc (d : Byte)
  /-- 0xB0 `BCS $tttt` (R262). -/
  | bcs (d : Byte)
  /-- 0xF0 `BEQ $tttt` (R263). -/
  | beq (d : Byte)
  /-- 0xD0 `BNE $tttt` (R264). -/
  | bne (d : Byte)
  /-- 0x30 `BMI $tttt` (R265). -/
  | bmi (d : Byte)
  /-- 0x10 `BPL $tttt` (R266). -/
  | bpl (d : Byte)
  /-- 0x50 `BVC $tttt` (R267). -/
  | bvc (d : Byte)
  /-- 0x70 `BVS $tttt` (R268). -/
  | bvs (d : Byte)
  -- Jumps and subroutine call
  /-- 0x4C `JMP $nnnn` (R280). -/
  | jmpAbs (w : Addr)
  /-- 0x6C `JMP ($nnnn)` (R281). -/
  | jmpInd (w : Addr)
  /-- 0x20 `JSR $nnnn` (R282). -/
  | jsr (w : Addr)
  -- Flag operations, stack, halt
  /-- 0x18 `CLC` (R300). -/
  | clc
  /-- 0xD8 `CLD` (R301). -/
  | cld
  /-- 0x58 `CLI` (R302). -/
  | cli
  /-- 0xB8 `CLV` (R303). -/
  | clv
  /-- 0x48 `PHA` (R304). -/
  | pha
  /-- 0x08 `PHP` (R305). -/
  | php
  /-- 0x68 `PLA` (R306). -/
  | pla
  /-- 0x28 `PLP` (R307). -/
  | plp
  /-- 0x00 `BRK` (R310). -/
  | brk
  deriving DecidableEq, Repr

end Sys2Proof
end

