-- ==== Sys2Proof/WellFormed.lean ====
section
/-! DEFINITION. Mnemonics, addressing modes, operands, and when an instruction descriptor is well formed. A descriptor is
the tuple (mnemonic, addressing mode, encoded size) of 30_encoding.md R110. Two checks: the mnemonic has the mode (the
"Encoding" line of its rule), and the size is one more than the number of operand bytes of the mode (R82). Operand bytes
are never checked: every value is legal (R122), so nothing is asked of an instruction's fields. -/

namespace Sys2Proof

/-- The mnemonics of R12, as spec/opcode_table.json spells them (JMP absolute and JMP indirect share one). -/
inductive Mnemonic where
  | LDA | LDX | LDY | TAX
  | ADC | CMP | CPX | CPY
  | AND | EOR | ORA | BIT
  | ASL | LSR | ROL
  | INX | INY | DEX | DEY | INC | DEC
  | BCC | BCS | BEQ | BNE | BMI | BPL | BVC | BVS
  | JMP | JSR
  | CLC | CLD | CLI | CLV
  | PHA | PHP | PLA | PLP
  | BRK
  deriving DecidableEq, Repr

/-- The addressing modes, under the spec names of R82. -/
inductive Mode where
  | imp | acc | imm | zp | zpx | zpy | abs | absx | absy | ind | indx | indy | rel
  deriving DecidableEq, Repr

/-- A memory operand: an addressing mode that designates a byte of memory, with its operand byte `d` or word `w` (R92 to
R100). -/
inductive Place where
  | zp (d : Byte) | zpx (d : Byte) | zpy (d : Byte)
  | abs (w : Addr) | absx (w : Addr) | absy (w : Addr)
  | ind (w : Addr) | indx (d : Byte) | indy (d : Byte)
  deriving DecidableEq, Repr

/-- An operand: an addressing mode with its operand bytes (R82, R90 to R102). -/
inductive Operand where
  | none
  | acc
  | imm (d : Byte)
  | rel (d : Byte)
  | mem (m : Place)
  deriving DecidableEq, Repr

/-- The mode of a memory operand. -/
def Place.mode : Place → Mode
  | .zp _ => .zp
  | .zpx _ => .zpx
  | .zpy _ => .zpy
  | .abs _ => .abs
  | .absx _ => .absx
  | .absy _ => .absy
  | .ind _ => .ind
  | .indx _ => .indx
  | .indy _ => .indy

/-- The mode of an operand. -/
def Operand.mode : Operand → Mode
  | .none => .imp
  | .acc => .acc
  | .imm _ => .imm
  | .rel _ => .rel
  | .mem m => m.mode

/-- How many operand bytes follow the opcode in a mode: the operand column of R91 to R102. -/
def Mode.operandBytes : Mode → Nat
  | .imp | .acc => 0
  | .imm | .zp | .zpx | .zpy | .indx | .indy | .rel => 1
  | .abs | .absx | .absy | .ind => 2

/-- The modes a mnemonic has: the "Encoding" line of its instruction rule (R161 to R310). -/
def Mnemonic.modes : Mnemonic → List Mode
  | .LDA | .ADC | .CMP | .AND | .EOR | .ORA => [.imm, .zp, .zpx, .abs, .absx, .absy, .indx, .indy]
  | .LDX => [.imm, .zp, .zpy, .abs, .absy]
  | .LDY => [.imm, .zp, .zpx, .abs, .absx]
  | .CPX | .CPY => [.imm, .zp, .abs]
  | .BIT => [.zp, .abs]
  | .ASL | .LSR | .ROL => [.acc, .zp, .zpx, .abs, .absx]
  | .INC | .DEC => [.zp, .zpx, .abs, .absx]
  | .BCC | .BCS | .BEQ | .BNE | .BMI | .BPL | .BVC | .BVS => [.rel]
  | .JMP => [.abs, .ind]
  | .JSR => [.abs]
  | .TAX | .INX | .INY | .DEX | .DEY | .CLC | .CLD | .CLI | .CLV | .PHA | .PHP | .PLA | .PLP | .BRK => [.imp]

/-- An instruction descriptor (R110): "a tuple (mnemonic, addressing mode, encoded size in bytes)". -/
structure Descriptor where
  mnemonic : Mnemonic
  mode : Mode
  size : Nat
  deriving DecidableEq, Repr

/-- The mnemonic has the mode. -/
def Descriptor.modeOk (d : Descriptor) : Bool := d.mnemonic.modes.contains d.mode

/-- The size is one more than the mode's operand bytes (R82, last sentence). -/
def Descriptor.sizeOk (d : Descriptor) : Bool := d.size == 1 + d.mode.operandBytes

/-- A descriptor of the opcode table. -/
def Descriptor.wellFormed (d : Descriptor) : Bool := d.modeOk && d.sizeOk

end Sys2Proof
end

