-- ==== Sys2Proof/Decode.lean ====
section
/-! DEFINITION. The decoder: the opcode table of 30_encoding.md R110 as a list of rows, looked up by all eight bits of the
opcode byte (R84), and the assembly of the operand (R81). After it the encoder, and the descriptor of an instruction. -/

namespace Sys2Proof

/-! ## Byte order (20_memory.md R53) -/

/-- The low byte of a word. -/
def lowByte (w : Addr) : Byte := w.setWidth 8

/-- The high byte of a word: `(w >> 8) & 0xFF` (R52). -/
def highByte (w : Addr) : Byte := (w >>> 8).setWidth 8

/-- `hi:lo`, the word `(hi << 8) | lo` (R8). -/
def wordOf (hi lo : Byte) : Addr := hi.setWidth 16 <<< 8 ||| lo.setWidth 16

/-! ## The opcode table -/

/-- The encoded size of each mode (R82), mode by mode. -/
def Mode.size : Mode → Nat
  | .imp => 1
  | .acc => 1
  | .imm => 2
  | .zp => 2
  | .zpx => 2
  | .zpy => 2
  | .indy => 2
  | .indx => 2
  | .rel => 2
  | .abs => 3
  | .absx => 3
  | .absy => 3
  | .ind => 3

/-- The three instruction formats (R81), each with the instruction it makes from its operand bytes. -/
inductive Layout where
  | f1 (i : Instr)
  | f2 (make : Byte → Instr)
  | f3 (make : Addr → Instr)

/-- An entry of the opcode table: the opcode byte, its mnemonic and mode, and the instruction its operand bytes make. -/
structure Row where
  opcode : Byte
  mnemonic : Mnemonic
  mode : Mode
  layout : Layout

/-- The descriptor of an entry (R110). -/
def Row.descriptor (r : Row) : Descriptor := ⟨r.mnemonic, r.mode, r.mode.size⟩

/-- The entries of R110 whose opcode is 0x00 to 0x0F. -/
def opcodes0x : List Row :=
  [⟨0x00, .BRK, .imp, .f1 .brk⟩,
   ⟨0x01, .ORA, .indx, .f2 .oraIndX⟩,
   ⟨0x05, .ORA, .zp, .f2 .oraZp⟩,
   ⟨0x06, .ASL, .zp, .f2 .aslZp⟩,
   ⟨0x08, .PHP, .imp, .f1 .php⟩,
   ⟨0x09, .ORA, .imm, .f2 .oraImm⟩,
   ⟨0x0A, .ASL, .acc, .f1 .aslAcc⟩,
   ⟨0x0D, .ORA, .abs, .f3 .oraAbs⟩,
   ⟨0x0E, .ASL, .abs, .f3 .aslAbs⟩]

/-- The entries of R110 whose opcode is 0x10 to 0x1F. -/
def opcodes1x : List Row :=
  [⟨0x10, .BPL, .rel, .f2 .bpl⟩,
   ⟨0x11, .ORA, .indy, .f2 .oraIndY⟩,
   ⟨0x15, .ORA, .zpx, .f2 .oraZpX⟩,
   ⟨0x16, .ASL, .zpx, .f2 .aslZpX⟩,
   ⟨0x18, .CLC, .imp, .f1 .clc⟩,
   ⟨0x19, .ORA, .absy, .f3 .oraAbsY⟩,
   ⟨0x1D, .ORA, .absx, .f3 .oraAbsX⟩,
   ⟨0x1E, .ASL, .absx, .f3 .aslAbsX⟩]

/-- The entries of R110 whose opcode is 0x20 to 0x2F. -/
def opcodes2x : List Row :=
  [⟨0x20, .JSR, .abs, .f3 .jsr⟩,
   ⟨0x21, .AND, .indx, .f2 .andIndX⟩,
   ⟨0x24, .BIT, .zp, .f2 .bitZp⟩,
   ⟨0x25, .AND, .zp, .f2 .andZp⟩,
   ⟨0x26, .ROL, .zp, .f2 .rolZp⟩,
   ⟨0x28, .PLP, .imp, .f1 .plp⟩,
   ⟨0x29, .AND, .imm, .f2 .andImm⟩,
   ⟨0x2A, .ROL, .acc, .f1 .rolAcc⟩,
   ⟨0x2C, .BIT, .abs, .f3 .bitAbs⟩,
   ⟨0x2D, .AND, .abs, .f3 .andAbs⟩,
   ⟨0x2E, .ROL, .abs, .f3 .rolAbs⟩]

/-- The entries of R110 whose opcode is 0x30 to 0x3F. -/
def opcodes3x : List Row :=
  [⟨0x30, .BMI, .rel, .f2 .bmi⟩,
   ⟨0x31, .AND, .indy, .f2 .andIndY⟩,
   ⟨0x35, .AND, .zpx, .f2 .andZpX⟩,
   ⟨0x36, .ROL, .zpx, .f2 .rolZpX⟩,
   ⟨0x39, .AND, .absy, .f3 .andAbsY⟩,
   ⟨0x3D, .AND, .absx, .f3 .andAbsX⟩,
   ⟨0x3E, .ROL, .absx, .f3 .rolAbsX⟩]

/-- The entries of R110 whose opcode is 0x40 to 0x4F. -/
def opcodes4x : List Row :=
  [⟨0x41, .EOR, .indx, .f2 .eorIndX⟩,
   ⟨0x45, .EOR, .zp, .f2 .eorZp⟩,
   ⟨0x46, .LSR, .zp, .f2 .lsrZp⟩,
   ⟨0x48, .PHA, .imp, .f1 .pha⟩,
   ⟨0x49, .EOR, .imm, .f2 .eorImm⟩,
   ⟨0x4A, .LSR, .acc, .f1 .lsrAcc⟩,
   ⟨0x4C, .JMP, .abs, .f3 .jmpAbs⟩,
   ⟨0x4D, .EOR, .abs, .f3 .eorAbs⟩,
   ⟨0x4E, .LSR, .abs, .f3 .lsrAbs⟩]

/-- The entries of R110 whose opcode is 0x50 to 0x5F. -/
def opcodes5x : List Row :=
  [⟨0x50, .BVC, .rel, .f2 .bvc⟩,
   ⟨0x51, .EOR, .indy, .f2 .eorIndY⟩,
   ⟨0x55, .EOR, .zpx, .f2 .eorZpX⟩,
   ⟨0x56, .LSR, .zpx, .f2 .lsrZpX⟩,
   ⟨0x58, .CLI, .imp, .f1 .cli⟩,
   ⟨0x59, .EOR, .absy, .f3 .eorAbsY⟩,
   ⟨0x5D, .EOR, .absx, .f3 .eorAbsX⟩,
   ⟨0x5E, .LSR, .absx, .f3 .lsrAbsX⟩]

/-- The entries of R110 whose opcode is 0x60 to 0x6F. -/
def opcodes6x : List Row :=
  [⟨0x61, .ADC, .indx, .f2 .adcIndX⟩,
   ⟨0x65, .ADC, .zp, .f2 .adcZp⟩,
   ⟨0x68, .PLA, .imp, .f1 .pla⟩,
   ⟨0x69, .ADC, .imm, .f2 .adcImm⟩,
   ⟨0x6C, .JMP, .ind, .f3 .jmpInd⟩,
   ⟨0x6D, .ADC, .abs, .f3 .adcAbs⟩]

/-- The entries of R110 whose opcode is 0x70 to 0x7F. -/
def opcodes7x : List Row :=
  [⟨0x70, .BVS, .rel, .f2 .bvs⟩,
   ⟨0x71, .ADC, .indy, .f2 .adcIndY⟩,
   ⟨0x75, .ADC, .zpx, .f2 .adcZpX⟩,
   ⟨0x79, .ADC, .absy, .f3 .adcAbsY⟩,
   ⟨0x7D, .ADC, .absx, .f3 .adcAbsX⟩]

/-- The entries of R110 whose opcode is 0x80 to 0x8F. -/
def opcodes8x : List Row :=
  [⟨0x88, .DEY, .imp, .f1 .dey⟩]

/-- The entries of R110 whose opcode is 0x90 to 0x9F. -/
def opcodes9x : List Row :=
  [⟨0x90, .BCC, .rel, .f2 .bcc⟩]

/-- The entries of R110 whose opcode is 0xA0 to 0xAF. -/
def opcodesAx : List Row :=
  [⟨0xA0, .LDY, .imm, .f2 .ldyImm⟩,
   ⟨0xA1, .LDA, .indx, .f2 .ldaIndX⟩,
   ⟨0xA2, .LDX, .imm, .f2 .ldxImm⟩,
   ⟨0xA4, .LDY, .zp, .f2 .ldyZp⟩,
   ⟨0xA5, .LDA, .zp, .f2 .ldaZp⟩,
   ⟨0xA6, .LDX, .zp, .f2 .ldxZp⟩,
   ⟨0xA9, .LDA, .imm, .f2 .ldaImm⟩,
   ⟨0xAA, .TAX, .imp, .f1 .tax⟩,
   ⟨0xAC, .LDY, .abs, .f3 .ldyAbs⟩,
   ⟨0xAD, .LDA, .abs, .f3 .ldaAbs⟩,
   ⟨0xAE, .LDX, .abs, .f3 .ldxAbs⟩]

/-- The entries of R110 whose opcode is 0xB0 to 0xBF. -/
def opcodesBx : List Row :=
  [⟨0xB0, .BCS, .rel, .f2 .bcs⟩,
   ⟨0xB1, .LDA, .indy, .f2 .ldaIndY⟩,
   ⟨0xB4, .LDY, .zpx, .f2 .ldyZpX⟩,
   ⟨0xB5, .LDA, .zpx, .f2 .ldaZpX⟩,
   ⟨0xB6, .LDX, .zpy, .f2 .ldxZpY⟩,
   ⟨0xB8, .CLV, .imp, .f1 .clv⟩,
   ⟨0xB9, .LDA, .absy, .f3 .ldaAbsY⟩,
   ⟨0xBC, .LDY, .absx, .f3 .ldyAbsX⟩,
   ⟨0xBD, .LDA, .absx, .f3 .ldaAbsX⟩,
   ⟨0xBE, .LDX, .absy, .f3 .ldxAbsY⟩]

/-- The entries of R110 whose opcode is 0xC0 to 0xCF. -/
def opcodesCx : List Row :=
  [⟨0xC0, .CPY, .imm, .f2 .cpyImm⟩,
   ⟨0xC1, .CMP, .indx, .f2 .cmpIndX⟩,
   ⟨0xC4, .CPY, .zp, .f2 .cpyZp⟩,
   ⟨0xC5, .CMP, .zp, .f2 .cmpZp⟩,
   ⟨0xC6, .DEC, .zp, .f2 .decZp⟩,
   ⟨0xC8, .INY, .imp, .f1 .iny⟩,
   ⟨0xC9, .CMP, .imm, .f2 .cmpImm⟩,
   ⟨0xCA, .DEX, .imp, .f1 .dex⟩,
   ⟨0xCC, .CPY, .abs, .f3 .cpyAbs⟩,
   ⟨0xCD, .CMP, .abs, .f3 .cmpAbs⟩,
   ⟨0xCE, .DEC, .abs, .f3 .decAbs⟩]

/-- The entries of R110 whose opcode is 0xD0 to 0xDF. -/
def opcodesDx : List Row :=
  [⟨0xD0, .BNE, .rel, .f2 .bne⟩,
   ⟨0xD1, .CMP, .indy, .f2 .cmpIndY⟩,
   ⟨0xD5, .CMP, .zpx, .f2 .cmpZpX⟩,
   ⟨0xD6, .DEC, .zpx, .f2 .decZpX⟩,
   ⟨0xD8, .CLD, .imp, .f1 .cld⟩,
   ⟨0xD9, .CMP, .absy, .f3 .cmpAbsY⟩,
   ⟨0xDD, .CMP, .absx, .f3 .cmpAbsX⟩,
   ⟨0xDE, .DEC, .absx, .f3 .decAbsX⟩]

/-- The entries of R110 whose opcode is 0xE0 to 0xEF. -/
def opcodesEx : List Row :=
  [⟨0xE0, .CPX, .imm, .f2 .cpxImm⟩,
   ⟨0xE4, .CPX, .zp, .f2 .cpxZp⟩,
   ⟨0xE6, .INC, .zp, .f2 .incZp⟩,
   ⟨0xE8, .INX, .imp, .f1 .inx⟩,
   ⟨0xEC, .CPX, .abs, .f3 .cpxAbs⟩,
   ⟨0xEE, .INC, .abs, .f3 .incAbs⟩]

/-- The entries of R110 whose opcode is 0xF0 to 0xFF. -/
def opcodesFx : List Row :=
  [⟨0xF0, .BEQ, .rel, .f2 .beq⟩,
   ⟨0xF6, .INC, .zpx, .f2 .incZpX⟩,
   ⟨0xFE, .INC, .absx, .f3 .incAbsX⟩]

/-- The opcode table (R110): 114 entries, in the order of the spec. -/
def opcodeTable : List Row :=
  opcodes0x ++ opcodes1x ++ opcodes2x ++ opcodes3x ++ opcodes4x ++ opcodes5x ++ opcodes6x ++ opcodes7x ++
  opcodes8x ++ opcodes9x ++ opcodesAx ++ opcodesBx ++ opcodesCx ++ opcodesDx ++ opcodesEx ++ opcodesFx

/-- The entry of an opcode byte, if it has one (R83: the opcode byte alone decides; R120: 142 bytes have none). -/
def lookup (op : Byte) : Option Row := opcodeTable.find? (fun r => r.opcode == op)

/-! ## The decoder -/

/-- What the decoder answers on a list of bytes. -/
inductive Decoded where
  /-- An instruction, and the bytes after it. -/
  | ok (i : Instr) (rest : List Byte)
  /-- The opcode byte has no entry (R120, R121). -/
  | unimplemented (op : Byte)
  /-- The list ends before the instruction does (an instruction is fetched from a memory that has no end). -/
  | truncated
  deriving DecidableEq, Repr

/-- Read an instruction's operand bytes from the bytes after the opcode (R81, little-endian by R53). -/
def Layout.decode : Layout → List Byte → Decoded
  | .f1 i, rest => .ok i rest
  | .f2 make, d :: rest => .ok (make d) rest
  | .f2 _, [] => .truncated
  | .f3 make, lo :: hi :: rest => .ok (make (wordOf hi lo)) rest
  | .f3 _, [_] => .truncated
  | .f3 _, [] => .truncated

/-- Decode the instruction at the head of a list of bytes (R80, R83). -/
def decode : List Byte → Decoded
  | [] => .truncated
  | op :: rest =>
    match lookup op with
    | none => .unimplemented op
    | some r => r.layout.decode rest

/-- Decode an instruction from its opcode byte and the two bytes after it, of which it uses as many as it has operand
bytes. No answer exactly when the opcode byte has no entry (R121): three bytes hold every instruction (R80). -/
def decode3 (op b1 b2 : Byte) : Option Instr :=
  match decode [op, b1, b2] with
  | .ok i _ => some i
  | .unimplemented _ => none
  | .truncated => none

/-- Byte `k` of an instruction given as one number, bit 0 the least significant bit of its first byte. -/
def tableByte (nbits w k : Nat) : Byte := BitVec.ofNat 8 ((w % 2 ^ nbits) >>> (8 * k))

/-- The instruction the decoder reads from an instruction numbered as spec/opcode_table.json numbers its bits; every bit
from `nbits` up is 0. -/
def decodeTableWord (nbits w : Nat) : Option Instr :=
  decode3 (tableByte nbits w 0) (tableByte nbits w 1) (tableByte nbits w 2)

/-! ## The encoder -/

/-- The bytes of an instruction, in fetch order: the opcode of its rule's "Encoding" line, then its operand bytes, low byte
of a word first (R81, R53). -/
def encode : Instr → List Byte
  | .ldaImm d => [0xA9, d]
  | .ldaZp d => [0xA5, d]
  | .ldaZpX d => [0xB5, d]
  | .ldaAbs w => [0xAD, lowByte w, highByte w]
  | .ldaAbsX w => [0xBD, lowByte w, highByte w]
  | .ldaAbsY w => [0xB9, lowByte w, highByte w]
  | .ldaIndX d => [0xA1, d]
  | .ldaIndY d => [0xB1, d]
  | .ldxImm d => [0xA2, d]
  | .ldxZp d => [0xA6, d]
  | .ldxZpY d => [0xB6, d]
  | .ldxAbs w => [0xAE, lowByte w, highByte w]
  | .ldxAbsY w => [0xBE, lowByte w, highByte w]
  | .ldyImm d => [0xA0, d]
  | .ldyZp d => [0xA4, d]
  | .ldyZpX d => [0xB4, d]
  | .ldyAbs w => [0xAC, lowByte w, highByte w]
  | .ldyAbsX w => [0xBC, lowByte w, highByte w]
  | .tax => [0xAA]
  | .adcImm d => [0x69, d]
  | .adcZp d => [0x65, d]
  | .adcZpX d => [0x75, d]
  | .adcAbs w => [0x6D, lowByte w, highByte w]
  | .adcAbsX w => [0x7D, lowByte w, highByte w]
  | .adcAbsY w => [0x79, lowByte w, highByte w]
  | .adcIndX d => [0x61, d]
  | .adcIndY d => [0x71, d]
  | .cmpImm d => [0xC9, d]
  | .cmpZp d => [0xC5, d]
  | .cmpZpX d => [0xD5, d]
  | .cmpAbs w => [0xCD, lowByte w, highByte w]
  | .cmpAbsX w => [0xDD, lowByte w, highByte w]
  | .cmpAbsY w => [0xD9, lowByte w, highByte w]
  | .cmpIndX d => [0xC1, d]
  | .cmpIndY d => [0xD1, d]
  | .cpxImm d => [0xE0, d]
  | .cpxZp d => [0xE4, d]
  | .cpxAbs w => [0xEC, lowByte w, highByte w]
  | .cpyImm d => [0xC0, d]
  | .cpyZp d => [0xC4, d]
  | .cpyAbs w => [0xCC, lowByte w, highByte w]
  | .andImm d => [0x29, d]
  | .andZp d => [0x25, d]
  | .andZpX d => [0x35, d]
  | .andAbs w => [0x2D, lowByte w, highByte w]
  | .andAbsX w => [0x3D, lowByte w, highByte w]
  | .andAbsY w => [0x39, lowByte w, highByte w]
  | .andIndX d => [0x21, d]
  | .andIndY d => [0x31, d]
  | .eorImm d => [0x49, d]
  | .eorZp d => [0x45, d]
  | .eorZpX d => [0x55, d]
  | .eorAbs w => [0x4D, lowByte w, highByte w]
  | .eorAbsX w => [0x5D, lowByte w, highByte w]
  | .eorAbsY w => [0x59, lowByte w, highByte w]
  | .eorIndX d => [0x41, d]
  | .eorIndY d => [0x51, d]
  | .oraImm d => [0x09, d]
  | .oraZp d => [0x05, d]
  | .oraZpX d => [0x15, d]
  | .oraAbs w => [0x0D, lowByte w, highByte w]
  | .oraAbsX w => [0x1D, lowByte w, highByte w]
  | .oraAbsY w => [0x19, lowByte w, highByte w]
  | .oraIndX d => [0x01, d]
  | .oraIndY d => [0x11, d]
  | .bitZp d => [0x24, d]
  | .bitAbs w => [0x2C, lowByte w, highByte w]
  | .aslAcc => [0x0A]
  | .aslZp d => [0x06, d]
  | .aslZpX d => [0x16, d]
  | .aslAbs w => [0x0E, lowByte w, highByte w]
  | .aslAbsX w => [0x1E, lowByte w, highByte w]
  | .lsrAcc => [0x4A]
  | .lsrZp d => [0x46, d]
  | .lsrZpX d => [0x56, d]
  | .lsrAbs w => [0x4E, lowByte w, highByte w]
  | .lsrAbsX w => [0x5E, lowByte w, highByte w]
  | .rolAcc => [0x2A]
  | .rolZp d => [0x26, d]
  | .rolZpX d => [0x36, d]
  | .rolAbs w => [0x2E, lowByte w, highByte w]
  | .rolAbsX w => [0x3E, lowByte w, highByte w]
  | .inx => [0xE8]
  | .iny => [0xC8]
  | .dex => [0xCA]
  | .dey => [0x88]
  | .incZp d => [0xE6, d]
  | .incZpX d => [0xF6, d]
  | .incAbs w => [0xEE, lowByte w, highByte w]
  | .incAbsX w => [0xFE, lowByte w, highByte w]
  | .decZp d => [0xC6, d]
  | .decZpX d => [0xD6, d]
  | .decAbs w => [0xCE, lowByte w, highByte w]
  | .decAbsX w => [0xDE, lowByte w, highByte w]
  | .bcc d => [0x90, d]
  | .bcs d => [0xB0, d]
  | .beq d => [0xF0, d]
  | .bne d => [0xD0, d]
  | .bmi d => [0x30, d]
  | .bpl d => [0x10, d]
  | .bvc d => [0x50, d]
  | .bvs d => [0x70, d]
  | .jmpAbs w => [0x4C, lowByte w, highByte w]
  | .jmpInd w => [0x6C, lowByte w, highByte w]
  | .jsr w => [0x20, lowByte w, highByte w]
  | .clc => [0x18]
  | .cld => [0xD8]
  | .cli => [0x58]
  | .clv => [0xB8]
  | .pha => [0x48]
  | .php => [0x08]
  | .pla => [0x68]
  | .plp => [0x28]
  | .brk => [0x00]

/-! ## Mnemonic and operand of an instruction -/

/-- The mnemonic and the operand of an instruction: the "Encoding" line of its rule, read from the other side. -/
def Instr.form : Instr → Mnemonic × Operand
  | .ldaImm d => (.LDA, .imm d)
  | .ldaZp d => (.LDA, .mem (.zp d))
  | .ldaZpX d => (.LDA, .mem (.zpx d))
  | .ldaAbs w => (.LDA, .mem (.abs w))
  | .ldaAbsX w => (.LDA, .mem (.absx w))
  | .ldaAbsY w => (.LDA, .mem (.absy w))
  | .ldaIndX d => (.LDA, .mem (.indx d))
  | .ldaIndY d => (.LDA, .mem (.indy d))
  | .ldxImm d => (.LDX, .imm d)
  | .ldxZp d => (.LDX, .mem (.zp d))
  | .ldxZpY d => (.LDX, .mem (.zpy d))
  | .ldxAbs w => (.LDX, .mem (.abs w))
  | .ldxAbsY w => (.LDX, .mem (.absy w))
  | .ldyImm d => (.LDY, .imm d)
  | .ldyZp d => (.LDY, .mem (.zp d))
  | .ldyZpX d => (.LDY, .mem (.zpx d))
  | .ldyAbs w => (.LDY, .mem (.abs w))
  | .ldyAbsX w => (.LDY, .mem (.absx w))
  | .tax => (.TAX, .none)
  | .adcImm d => (.ADC, .imm d)
  | .adcZp d => (.ADC, .mem (.zp d))
  | .adcZpX d => (.ADC, .mem (.zpx d))
  | .adcAbs w => (.ADC, .mem (.abs w))
  | .adcAbsX w => (.ADC, .mem (.absx w))
  | .adcAbsY w => (.ADC, .mem (.absy w))
  | .adcIndX d => (.ADC, .mem (.indx d))
  | .adcIndY d => (.ADC, .mem (.indy d))
  | .cmpImm d => (.CMP, .imm d)
  | .cmpZp d => (.CMP, .mem (.zp d))
  | .cmpZpX d => (.CMP, .mem (.zpx d))
  | .cmpAbs w => (.CMP, .mem (.abs w))
  | .cmpAbsX w => (.CMP, .mem (.absx w))
  | .cmpAbsY w => (.CMP, .mem (.absy w))
  | .cmpIndX d => (.CMP, .mem (.indx d))
  | .cmpIndY d => (.CMP, .mem (.indy d))
  | .cpxImm d => (.CPX, .imm d)
  | .cpxZp d => (.CPX, .mem (.zp d))
  | .cpxAbs w => (.CPX, .mem (.abs w))
  | .cpyImm d => (.CPY, .imm d)
  | .cpyZp d => (.CPY, .mem (.zp d))
  | .cpyAbs w => (.CPY, .mem (.abs w))
  | .andImm d => (.AND, .imm d)
  | .andZp d => (.AND, .mem (.zp d))
  | .andZpX d => (.AND, .mem (.zpx d))
  | .andAbs w => (.AND, .mem (.abs w))
  | .andAbsX w => (.AND, .mem (.absx w))
  | .andAbsY w => (.AND, .mem (.absy w))
  | .andIndX d => (.AND, .mem (.indx d))
  | .andIndY d => (.AND, .mem (.indy d))
  | .eorImm d => (.EOR, .imm d)
  | .eorZp d => (.EOR, .mem (.zp d))
  | .eorZpX d => (.EOR, .mem (.zpx d))
  | .eorAbs w => (.EOR, .mem (.abs w))
  | .eorAbsX w => (.EOR, .mem (.absx w))
  | .eorAbsY w => (.EOR, .mem (.absy w))
  | .eorIndX d => (.EOR, .mem (.indx d))
  | .eorIndY d => (.EOR, .mem (.indy d))
  | .oraImm d => (.ORA, .imm d)
  | .oraZp d => (.ORA, .mem (.zp d))
  | .oraZpX d => (.ORA, .mem (.zpx d))
  | .oraAbs w => (.ORA, .mem (.abs w))
  | .oraAbsX w => (.ORA, .mem (.absx w))
  | .oraAbsY w => (.ORA, .mem (.absy w))
  | .oraIndX d => (.ORA, .mem (.indx d))
  | .oraIndY d => (.ORA, .mem (.indy d))
  | .bitZp d => (.BIT, .mem (.zp d))
  | .bitAbs w => (.BIT, .mem (.abs w))
  | .aslAcc => (.ASL, .acc)
  | .aslZp d => (.ASL, .mem (.zp d))
  | .aslZpX d => (.ASL, .mem (.zpx d))
  | .aslAbs w => (.ASL, .mem (.abs w))
  | .aslAbsX w => (.ASL, .mem (.absx w))
  | .lsrAcc => (.LSR, .acc)
  | .lsrZp d => (.LSR, .mem (.zp d))
  | .lsrZpX d => (.LSR, .mem (.zpx d))
  | .lsrAbs w => (.LSR, .mem (.abs w))
  | .lsrAbsX w => (.LSR, .mem (.absx w))
  | .rolAcc => (.ROL, .acc)
  | .rolZp d => (.ROL, .mem (.zp d))
  | .rolZpX d => (.ROL, .mem (.zpx d))
  | .rolAbs w => (.ROL, .mem (.abs w))
  | .rolAbsX w => (.ROL, .mem (.absx w))
  | .inx => (.INX, .none)
  | .iny => (.INY, .none)
  | .dex => (.DEX, .none)
  | .dey => (.DEY, .none)
  | .incZp d => (.INC, .mem (.zp d))
  | .incZpX d => (.INC, .mem (.zpx d))
  | .incAbs w => (.INC, .mem (.abs w))
  | .incAbsX w => (.INC, .mem (.absx w))
  | .decZp d => (.DEC, .mem (.zp d))
  | .decZpX d => (.DEC, .mem (.zpx d))
  | .decAbs w => (.DEC, .mem (.abs w))
  | .decAbsX w => (.DEC, .mem (.absx w))
  | .bcc d => (.BCC, .rel d)
  | .bcs d => (.BCS, .rel d)
  | .beq d => (.BEQ, .rel d)
  | .bne d => (.BNE, .rel d)
  | .bmi d => (.BMI, .rel d)
  | .bpl d => (.BPL, .rel d)
  | .bvc d => (.BVC, .rel d)
  | .bvs d => (.BVS, .rel d)
  | .jmpAbs w => (.JMP, .mem (.abs w))
  | .jmpInd w => (.JMP, .mem (.ind w))
  | .jsr w => (.JSR, .mem (.abs w))
  | .clc => (.CLC, .none)
  | .cld => (.CLD, .none)
  | .cli => (.CLI, .none)
  | .clv => (.CLV, .none)
  | .pha => (.PHA, .none)
  | .php => (.PHP, .none)
  | .pla => (.PLA, .none)
  | .plp => (.PLP, .none)
  | .brk => (.BRK, .none)

/-- The mnemonic of an instruction. -/
def Instr.mnemonic (i : Instr) : Mnemonic := i.form.1

/-- The operand of an instruction. -/
def Instr.operand (i : Instr) : Operand := i.form.2

/-- The addressing mode of an instruction. -/
def Instr.mode (i : Instr) : Mode := i.operand.mode

/-- The descriptor of an instruction, its size counted from its encoding. -/
def Instr.descriptor (i : Instr) : Descriptor := ⟨i.mnemonic, i.mode, (encode i).length⟩

/-- An instruction whose descriptor is well formed. R122: every operand value is legal, so this holds of every `Instr`
(Laws/PerInstr.lean). -/
def Instr.wellFormed (i : Instr) : Bool := i.descriptor.wellFormed

end Sys2Proof
end

