-- ==== Sys2Proof/Config.lean ====
section
/-! DEFINITION. The sizes the block fixes (00_scope.md R7: "None is left open"), and the free values: what the registers
and the memory hold after a failed load, which the source calls undefined. -/

namespace Sys2Proof.Config

/-- Base of the stack page: the byte `S` designates is at `0x0100 + S` (R7, R24). -/
def stackBase : Addr := 0x0100

/-- Where LoadROM puts image byte 0 (R7, R366). -/
def romBase : Addr := 0x8000

/-- Address of the reset vector's low byte (R7, R369). -/
def resetVector : Addr := 0xFFFC

/-- The PC that LoadROM writes into the reset vector (R367). -/
def romEntry : Addr := 0x8000

/-- Number of bytes of memory: one flat space (R7, R32). -/
def memorySize : Nat := 65536

/-- The largest image for which LoadROM does not answer ROMTooLarge (R7, R362). -/
def largestImage : Nat := 65536

/-- The largest image that fits between 0x8000 and 0xFFFF (R7, R363). -/
def largestFit : Nat := 32768

/-- FREE VALUE. What register number `r` holds after LoadROM answered ROMTooLarge for `image` on a CPU with those registers and
that memory: "CPU state is undefined on failure" (R332, R364, I1). No body: nothing can be proved of it. Log entry 3. -/
opaque lostRegister (image : List Byte) (registers : List Addr) (memory : List (Nat × Byte)) (r : Nat) : Addr

/-- FREE VALUE. The bytes memory holds after LoadROM answered ROMTooLarge for `image` on a CPU with those registers and that
memory (R332, R364, I1), as writes onto zeroed memory. No body: nothing can be proved of it. Log entry 3. -/
opaque lostMemory (image : List Byte) (registers : List Addr) (memory : List (Nat × Byte)) : List (Addr × Byte)

end Sys2Proof.Config
end

