-- ==== Sys2Proof/Machine/State.lean ====
section
/-! DEFINITION. The state of the block (10_state.md R20, R33), the ways a step can stop, and the state after reset (R36). -/

namespace Sys2Proof.Machine

/-- The memory `M` (R32): the bytes that are not 0x00, as (address, byte) pairs with rising addresses. What an unlisted
address reads as, and when a list is in this form, are `Memory.unlisted` and `Memory.wf` of Machine/Ops.lean. -/
abbrev Memory := List Host.Cell

/-- Why the model has no meaning for a host operation (60_exceptions.md R340). -/
inductive RefuseReason where
  /-- `Run` on a `Faulted` CPU (R340, D12). -/
  | runAfterFault
  /-- `Run` on a `LoadFailed` CPU (R340, D11). -/
  | runAfterLoadFailure
  /-- `Reset` on a `LoadFailed` CPU (R340, D11). -/
  | resetAfterLoadFailure
  /-- `LoadROM` or `LoadAndReset` on a `LoadFailed` CPU (R340, D11). -/
  | loadAfterLoadFailure
  /-- `LoadROM` of 32,769 to 65,536 bytes (R363, D10). -/
  | imageDoesNotFit
  deriving DecidableEq, Repr

/-- The run status (R33). -/
inductive RunStatus where
  /-- May Step. -/
  | ready
  /-- The last Step executed BRK (R310). -/
  | halted
  /-- The last Step fetched, at address `addr`, the opcode byte `op` that has no entry (R331). -/
  | faulted (op : Byte) (addr : Addr)
  /-- LoadROM returned ROMTooLarge (R364). -/
  | loadFailed
  /-- The model has no meaning for what was asked (R340); kept for good. -/
  | refused (reason : RefuseReason)
  deriving DecidableEq, Repr

/-- The state of the block: six registers, one memory (R20), and the run status (R33). -/
structure State where
  /-- `PC`: between instructions the address of the next opcode byte (R25). -/
  pc : Addr
  /-- `S`: the stack pointer, an offset into page 0x0100 (R24). -/
  sp : Byte
  /-- `A`: the accumulator (R21). -/
  a : Byte
  /-- `X`: index register (R22). -/
  x : Byte
  /-- `Y`: index register (R22). -/
  y : Byte
  /-- `P`: the status register, N V - B D I Z C at bits 7 to 0 (R23). -/
  p : Byte
  /-- `M`: the memory (R32). -/
  mem : Memory
  /-- The run status (R33). -/
  status : RunStatus
  deriving DecidableEq, Repr

/-- The block's two errors (R330: "a closed enumeration of these two names"). -/
inductive Fault where
  /-- Raised when an opcode fetch read a byte without an entry (R331); `step` answers it on the `Faulted` state the raising
  step left, and `run` returns it. Safe: the machine has stopped there (log entry 2). -/
  | unimplementedOpcode (op : Byte) (addr : Addr)
  /-- Returned by `loadROM` and `loadAndReset` for an image of more than 65,536 bytes (R332). Safe: the CPU is unusable
  afterwards. -/
  | romTooLarge
  deriving DecidableEq, Repr

/-- Why the model gives a step no meaning. -/
inductive Refusal where
  /-- An instruction without a meaning in `exec`. No arm of `exec` answers it. Safe. -/
  | notModelled (mnemonic : String)
  /-- `step` on a `Halted` CPU: Step is defined only when the run status is `Ready` (40_execution_loop.md R147). Safe: BRK
  has stopped the loop, and only a new `run` goes on (log entry 2). -/
  | stepWhileHalted
  /-- `step` on a CPU whose run status is `LoadFailed` or `Refused`, for the reason of R340. Safe: no claim about such a CPU
  can be proved. -/
  | hostOperation (reason : RefuseReason)
  deriving DecidableEq, Repr

/-- The machine right after reset (R36): `NewCPU(); Reset()`. Every field has the value the spec states: registers and flags
0 (R360, R369), every memory byte 0 (R32), and `PC` the word at 0xFFFC of zeroed memory (R370). -/
def State.reset : State where
  pc := 0x0000
  sp := 0x00
  a := 0x00
  x := 0x00
  y := 0x00
  p := 0x00
  mem := []
  status := .ready

end Sys2Proof.Machine
end

