-- ==== Sys2Proof/Machine/Ops.lean ====
section
/-! DEFINITION. The named operations over memory and registers: byte and word accesses (20_memory.md R50 to R52), the stack
(R54, R55), the program counter (40_execution_loop.md R143 to R146), raising UnimplementedOpcode (60_exceptions.md R331), and
the one way a handler is run (R147 steps 2, 5, 6 and 7). -/

namespace Sys2Proof.Machine

/-! ## Memory -/

/-- What an address that is not listed reads as: memory is zero-initialised (R32, R360). -/
def Memory.unlisted : Byte := 0x00

/-- The canonical form from address `lo` up: addresses strictly rising, inside memory, and no entry equal to what an unlisted
address reads as. -/
def Memory.wfFrom (lo : Nat) : Memory → Bool
  | [] => true
  | (b, w) :: m => decide (lo ≤ b) && decide (b < Config.memorySize) && (w != unlisted) && Memory.wfFrom (b + 1) m

/-- The canonical form of a memory: equal memories are equal lists (log entry 4). -/
def Memory.wf (m : Memory) : Bool := Memory.wfFrom 0 m

/-- The byte at an address. -/
def Memory.read : Memory → Nat → Byte
  | [], _ => unlisted
  | (b, w) :: m, n => if n = b then w else Memory.read m n

/-- Put an entry in front, unless it is what an unlisted address reads as. -/
def Memory.cons (n : Nat) (v : Byte) (m : Memory) : Memory := if v = unlisted then m else (n, v) :: m

/-- Store a byte at an address, keeping the canonical form. -/
def Memory.write : Memory → Nat → Byte → Memory
  | [], n, v => Memory.cons n v []
  | (b, w) :: m, n, v =>
    if n < b then Memory.cons n v ((b, w) :: m)
    else if n = b then Memory.cons n v m
    else (b, w) :: Memory.write m n v

/-! ## Registers: one update per field -/

def State.setPc (s : State) (v : Addr) : State := { s with pc := v }
def State.setSp (s : State) (v : Byte) : State := { s with sp := v }
def State.setA (s : State) (v : Byte) : State := { s with a := v }
def State.setX (s : State) (v : Byte) : State := { s with x := v }
def State.setY (s : State) (v : Byte) : State := { s with y := v }
def State.setP (s : State) (v : Byte) : State := { s with p := v }
def State.setMem (s : State) (v : Memory) : State := { s with mem := v }
def State.setStatus (s : State) (v : RunStatus) : State := { s with status := v }

/-! ## Accesses (R50 to R52) -/

/-- `MemRead(addr, 1)` (R50). -/
def State.readByte (s : State) (addr : Addr) : Byte := Memory.read s.mem addr.toNat

/-- `MemWrite(addr, 1, v)` (R50). -/
def State.writeByte (s : State) (addr : Addr) (v : Byte) : State := s.setMem (Memory.write s.mem addr.toNat v)

/-- `MemRead(addr, 2)` (R51): little-endian, the high byte at `u16(addr + 1)`. -/
def State.readWord (s : State) (addr : Addr) : Addr := wordOf (s.readByte (addr + 1)) (s.readByte addr)

/-- `MemWrite(addr, 2, v)` (R52): low byte first. -/
def State.writeWord (s : State) (addr : Addr) (v : Addr) : State :=
  (s.writeByte addr (lowByte v)).writeByte (addr + 1) (highByte v)

/-! ## The stack (R54 to R56) -/

/-- The address `0x0100 + S` of the stack byte that `S = v` designates (R24, R56). -/
def stackAddr (v : Byte) : Addr := Config.stackBase + v.setWidth 16

/-- `Push(v)` (R54): store at the designated byte, then move `S` down by one. -/
def State.push (s : State) (v : Byte) : State := (s.writeByte (stackAddr s.sp) v).setSp (s.sp - 1)

/-- `Pop()` (R55): move `S` up by one, then read the byte it designates. The byte, and the state after. -/
def State.pop (s : State) : Byte × State :=
  let t := s.setSp (s.sp + 1)
  (t.readByte (stackAddr t.sp), t)

/-! ## Errors -/

/-- Raise UnimplementedOpcode (R331): the opcode byte `op` has been fetched at `PC`, `PC` has passed it, the run status
records both, and nothing else changes. The block has no trap: nothing is saved and no vector is read (R338). -/
def State.raiseUnimplemented (s : State) (op : Byte) : State :=
  (s.setPc (s.pc + 1)).setStatus (.faulted op s.pc)

/-! ## Running a handler -/

/-- What a handler tells the program counter controller (R140). -/
inductive Disposition where
  /-- "advance PC by size−1 afterwards". -/
  | advance
  /-- "do not touch PC — handler already set it". -/
  | pcUpdated
  /-- "stop the loop". -/
  | halt
  deriving DecidableEq, Repr

/-- A handler (R142): it runs with `PC` at the first operand byte (R151) and answers a state and a disposition. -/
abbrev Handler := State → State × Disposition

/-- The outcome of a step, in this machine's types. -/
abbrev Result := Host.Outcome State Fault Refusal

/-- `PC <- u16(PC + n)`. -/
def State.advance (s : State) (n : Nat) : State := s.setPc (s.pc + BitVec.ofNat 16 n)

/-- What the loop does after a handler of size `size` (R144 to R146, R147 steps 6 and 7). -/
def finish (size : Nat) : State × Disposition → State
  | (t, .advance) => t.advance (size - 1)
  | (t, .pcUpdated) => t
  | (t, .halt) => (t.advance (size - 1)).setStatus .halted

/-- Run a handler from the state at the instruction's address: step `PC` past the opcode (R143), run it, then finish by its
disposition. A handler raises nothing (R333, R337), so the outcome is always a next state. -/
def runHandler (mode : Mode) (h : Handler) (s : State) : Result := .next (finish mode.size (h (s.advance 1)))

end Sys2Proof.Machine
end

