-- ==== Sys2Proof/Machine/Flags.lean ====
section
/-! DEFINITION. The flag engine (40_execution_loop.md R130 to R135, 42_arithmetic_compare.md R180): flags of the status byte
`P`, and the byte computations that set them. -/

namespace Sys2Proof.Machine

/-- The named flags of `P` (10_state.md R23). Bit 5 has no name. -/
inductive Flag where
  | N | V | B | D | I | Z | C
  deriving DecidableEq, Repr

/-- The mask of a flag (R131). -/
def Flag.mask : Flag → Byte
  | .N => 0x80
  | .V => 0x40
  | .B => 0x10
  | .D => 0x08
  | .I => 0x04
  | .Z => 0x02
  | .C => 0x01

/-- `test(mask)` (R131): `(P & mask) != 0`. -/
def testFlag (f : Flag) (p : Byte) : Bool := p &&& f.mask != 0

/-- Write flag `f` to `b` (R131): `(P & ~mask & 0xFF) | (b ? mask : 0)`. -/
def putFlag (f : Flag) (b : Bool) (p : Byte) : Byte := (p &&& ~~~f.mask) ||| (if b then f.mask else 0)

/-- `NZ(v)` (R130): N is bit 7 of `v`, Z is `v == 0`. -/
def nz (v p : Byte) : Byte := putFlag .Z (v == 0) (putFlag .N (v.getLsbD 7) p)

/-- A bit as a byte, for the sums and ors of R132 and R223. -/
def bitByte (b : Bool) : Byte := if b then 1 else 0

/-- `add_with_carry(a, b, cin)` (R132): the sum cut to 8 bits, and the carry out of bit 7. -/
def addWithCarry (a b : Byte) (cin : Bool) : Byte × Bool :=
  let t := a.toNat + b.toNat + (if cin then 1 else 0)
  (BitVec.ofNat 8 t, decide (t > 0xFF))

/-- `overflow(a, b, r)` (R135): `((a ^ r) & (b ^ r) & 0x80) != 0`. -/
def overflow (a b r : Byte) : Bool := (a ^^^ r) &&& (b ^^^ r) &&& 0x80 != 0

/-- `shift_left(v)` (R133): the shifted byte, and the bit shifted out. -/
def shiftLeft (v : Byte) : Byte × Bool := (v <<< 1, v.getLsbD 7)

/-- `shift_right(v)` (R134): the shifted byte, and the bit shifted out. -/
def shiftRight (v : Byte) : Byte × Bool := (v >>> 1, v.getLsbD 0)

/-- Rotate left through carry (R223): bit 0 becomes the old carry, the new carry is the old bit 7. -/
def rotateLeft (v : Byte) (c : Bool) : Byte × Bool := (v <<< 1 ||| bitByte c, v.getLsbD 7)

/-- `Compare(r, M)` on `P` (R180): C is `r >= M` unsigned, N and Z from the 8-bit difference. -/
def compareFlags (r m p : Byte) : Byte := nz (r - m) (putFlag .C (decide (m.toNat ≤ r.toNat)) p)

/-- A flag of the state. -/
def State.flag (s : State) (f : Flag) : Bool := testFlag f s.p

/-- Write a flag of the state. -/
def State.setFlag (s : State) (f : Flag) (b : Bool) : State := s.setP (putFlag f b s.p)

/-- `NZ(v)` on the state. -/
def State.setNZ (s : State) (v : Byte) : State := s.setP (nz v s.p)

end Sys2Proof.Machine
end

