-- ==== Sys2Proof/Machine/Operands.lean ====
section
/-! DEFINITION. The address resolver (30_encoding.md R90 to R102), the operand byte (R103), where a read-modify-write result
goes (44_shifts_rotates.md R220), and the branch target (46_branches.md R260). Every function here runs in the handler's
state, whose `PC` is the address of the first operand byte (R90). The operand bytes themselves are the instruction's fields,
fetched from `PC` on (log entry 5). -/

namespace Sys2Proof.Machine

/-- `zext_16(b)` (00_scope.md R8). -/
def zext (b : Byte) : Addr := b.setWidth 16

/-- `sext_16(b)` (00_scope.md R8). -/
def sext (b : Byte) : Addr := b.signExtend 16

/-- `EA(mode)` of a memory operand (R92 to R100). Sums of zero-page indexing wrap modulo 256, the other sums modulo 65536;
a pointer's high byte comes from `ptr + 1` (D6). -/
def ea : Place → State → Addr
  | .zp d, _ => zext d
  | .zpx d, s => zext (d + s.x)
  | .zpy d, s => zext (d + s.y)
  | .abs w, _ => w
  | .absx w, s => w + zext s.x
  | .absy w, s => w + zext s.y
  | .ind w, s => s.readWord w
  | .indx d, s => s.readWord (zext (d + s.x))
  | .indy d, s => s.readWord (zext d) + zext s.y

/-- The resolver on every operand (R90): the operand's own address for immediate (R91), none where the resolver is not
called or gives no address (R101, R102). -/
def resolve : Operand → State → Option Addr
  | .none, _ => none
  | .acc, _ => none
  | .imm _, s => some s.pc
  | .rel _, _ => none
  | .mem m, s => some (ea m s)

/-- The operand of an instruction that reads a data byte: immediate or in memory. -/
inductive Source where
  | imm (d : Byte)
  | mem (m : Place)
  deriving DecidableEq, Repr

/-- The mode of a source. -/
def Source.mode : Source → Mode
  | .imm _ => .imm
  | .mem m => m.mode

/-- The operand byte `M = MemRead(EA(mode), 1)` (R103). In immediate mode it is the operand byte itself (R91), which the
fetch has read at `EA(imm) = PC`. -/
def Source.load : Source → State → Byte
  | .imm d, _ => d
  | .mem m, s => s.readByte (ea m s)

/-- The operand of a shift or rotate: `A` or a byte of memory (R220). -/
inductive Target where
  | acc
  | mem (m : Place)
  deriving DecidableEq, Repr

/-- The mode of a target. -/
def Target.mode : Target → Mode
  | .acc => .acc
  | .mem m => m.mode

/-- `LoadOperand(mode)` (R220). -/
def Target.load : Target → State → Byte
  | .acc, s => s.a
  | .mem m, s => s.readByte (ea m s)

/-- `StoreResult(mode, r)` (R220): the same effective address, from the same state. -/
def Target.store : Target → Byte → State → State
  | .acc, r, s => s.setA r
  | .mem m, r, s => s.writeByte (ea m s) r

/-- The branch target (R260): in the handler `PC` is the address of the displacement, so the base is `PC + 1`. -/
def branchTarget (d : Byte) (s : State) : Addr := s.pc + 1 + sext d

/-- Run a handler on a source operand. -/
def onSource (o : Source) (h : Source → Handler) (s : State) : Result := runHandler o.mode (h o) s

/-- Run a handler on a shift's operand. -/
def onTarget (o : Target) (h : Target → Handler) (s : State) : Result := runHandler o.mode (h o) s

/-- Run a handler on a memory operand. -/
def onPlace (o : Place) (h : Place → Handler) (s : State) : Result := runHandler o.mode (h o) s

end Sys2Proof.Machine
end

