-- ==== Sys2Proof/Machine/Arithmetic.lean ====
section
/-! DEFINITION. ADC, CMP, CPX, CPY (42_arithmetic_compare.md). -/

namespace Sys2Proof.Machine

/-! ## Handlers -/

/-- ADC (R181): binary whatever D holds (10_state.md R29); V from the old A (D3). -/
def adc (o : Source) : Handler := fun s =>
  let m := o.load s
  let (r, c) := addWithCarry s.a m (s.flag .C)
  let v := overflow s.a m r
  ((((s.setFlag .V v).setA r).setFlag .C c).setNZ r, .advance)

/-- `Compare(r, M)` on the state (R180): only C, N and Z change. -/
def compareWith (r : Byte) (o : Source) : Handler := fun s => (s.setP (compareFlags r (o.load s) s.p), .advance)

/-- CMP (R182). -/
def compareA (o : Source) : Handler := fun s => compareWith s.a o s

/-- CPX (R183). -/
def compareX (o : Source) : Handler := fun s => compareWith s.x o s

/-- CPY (R184). -/
def compareY (o : Source) : Handler := fun s => compareWith s.y o s

/-! ## Meanings: one per opcode -/

/-- 0x69 `ADC #$nn` (R181). -/
def execAdcImm (d : Byte) (s : State) : Result :=
  onSource (.imm d) adc s

/-- 0x65 `ADC $nn` (R181). -/
def execAdcZp (d : Byte) (s : State) : Result :=
  onSource (.mem (.zp d)) adc s

/-- 0x75 `ADC $nn,X` (R181). -/
def execAdcZpX (d : Byte) (s : State) : Result :=
  onSource (.mem (.zpx d)) adc s

/-- 0x6D `ADC $nnnn` (R181). -/
def execAdcAbs (w : Addr) (s : State) : Result :=
  onSource (.mem (.abs w)) adc s

/-- 0x7D `ADC $nnnn,X` (R181). -/
def execAdcAbsX (w : Addr) (s : State) : Result :=
  onSource (.mem (.absx w)) adc s

/-- 0x79 `ADC $nnnn,Y` (R181). -/
def execAdcAbsY (w : Addr) (s : State) : Result :=
  onSource (.mem (.absy w)) adc s

/-- 0x61 `ADC ($nn,X)` (R181). -/
def execAdcIndX (d : Byte) (s : State) : Result :=
  onSource (.mem (.indx d)) adc s

/-- 0x71 `ADC ($nn),Y` (R181). -/
def execAdcIndY (d : Byte) (s : State) : Result :=
  onSource (.mem (.indy d)) adc s

/-- 0xC9 `CMP #$nn` (R182). -/
def execCmpImm (d : Byte) (s : State) : Result :=
  onSource (.imm d) compareA s

/-- 0xC5 `CMP $nn` (R182). -/
def execCmpZp (d : Byte) (s : State) : Result :=
  onSource (.mem (.zp d)) compareA s

/-- 0xD5 `CMP $nn,X` (R182). -/
def execCmpZpX (d : Byte) (s : State) : Result :=
  onSource (.mem (.zpx d)) compareA s

/-- 0xCD `CMP $nnnn` (R182). -/
def execCmpAbs (w : Addr) (s : State) : Result :=
  onSource (.mem (.abs w)) compareA s

/-- 0xDD `CMP $nnnn,X` (R182). -/
def execCmpAbsX (w : Addr) (s : State) : Result :=
  onSource (.mem (.absx w)) compareA s

/-- 0xD9 `CMP $nnnn,Y` (R182). -/
def execCmpAbsY (w : Addr) (s : State) : Result :=
  onSource (.mem (.absy w)) compareA s

/-- 0xC1 `CMP ($nn,X)` (R182). -/
def execCmpIndX (d : Byte) (s : State) : Result :=
  onSource (.mem (.indx d)) compareA s

/-- 0xD1 `CMP ($nn),Y` (R182). -/
def execCmpIndY (d : Byte) (s : State) : Result :=
  onSource (.mem (.indy d)) compareA s

/-- 0xE0 `CPX #$nn` (R183). -/
def execCpxImm (d : Byte) (s : State) : Result :=
  onSource (.imm d) compareX s

/-- 0xE4 `CPX $nn` (R183). -/
def execCpxZp (d : Byte) (s : State) : Result :=
  onSource (.mem (.zp d)) compareX s

/-- 0xEC `CPX $nnnn` (R183). -/
def execCpxAbs (w : Addr) (s : State) : Result :=
  onSource (.mem (.abs w)) compareX s

/-- 0xC0 `CPY #$nn` (R184). -/
def execCpyImm (d : Byte) (s : State) : Result :=
  onSource (.imm d) compareY s

/-- 0xC4 `CPY $nn` (R184). -/
def execCpyZp (d : Byte) (s : State) : Result :=
  onSource (.mem (.zp d)) compareY s

/-- 0xCC `CPY $nnnn` (R184). -/
def execCpyAbs (w : Addr) (s : State) : Result :=
  onSource (.mem (.abs w)) compareY s

end Sys2Proof.Machine
end

