-- ==== Sys2Proof/Machine/Branches.lean ====
section
/-! DEFINITION. BCC, BCS, BEQ, BNE, BMI, BPL, BVC, BVS (46_branches.md). -/

namespace Sys2Proof.Machine

/-! ## Handlers -/

/-- `Branch(cond)` (R260): the handler sets `PC` to the target if the condition holds; else the loop moves past. -/
def branch (cond : Bool) (d : Byte) : Handler := fun s =>
  if cond then (s.setPc (branchTarget d s), .pcUpdated) else (s, .advance)

/-- BCC (R261): taken when C is 0. -/
def branchCC (d : Byte) : Handler := fun s => branch (!s.flag .C) d s

/-- BCS (R262): taken when C is 1. -/
def branchCS (d : Byte) : Handler := fun s => branch (s.flag .C) d s

/-- BEQ (R263): taken when Z is 1. -/
def branchEQ (d : Byte) : Handler := fun s => branch (s.flag .Z) d s

/-- BNE (R264): taken when Z is 0. -/
def branchNE (d : Byte) : Handler := fun s => branch (!s.flag .Z) d s

/-- BMI (R265): taken when N is 1. -/
def branchMI (d : Byte) : Handler := fun s => branch (s.flag .N) d s

/-- BPL (R266): taken when N is 0. -/
def branchPL (d : Byte) : Handler := fun s => branch (!s.flag .N) d s

/-- BVC (R267): taken when V is 0. -/
def branchVC (d : Byte) : Handler := fun s => branch (!s.flag .V) d s

/-- BVS (R268): taken when V is 1. -/
def branchVS (d : Byte) : Handler := fun s => branch (s.flag .V) d s

/-! ## Meanings: one per opcode -/

/-- 0x90 `BCC $tttt` (R261). -/
def execBcc (d : Byte) (s : State) : Result :=
  runHandler .rel (branchCC d) s

/-- 0xB0 `BCS $tttt` (R262). -/
def execBcs (d : Byte) (s : State) : Result :=
  runHandler .rel (branchCS d) s

/-- 0xF0 `BEQ $tttt` (R263). -/
def execBeq (d : Byte) (s : State) : Result :=
  runHandler .rel (branchEQ d) s

/-- 0xD0 `BNE $tttt` (R264). -/
def execBne (d : Byte) (s : State) : Result :=
  runHandler .rel (branchNE d) s

/-- 0x30 `BMI $tttt` (R265). -/
def execBmi (d : Byte) (s : State) : Result :=
  runHandler .rel (branchMI d) s

/-- 0x10 `BPL $tttt` (R266). -/
def execBpl (d : Byte) (s : State) : Result :=
  runHandler .rel (branchPL d) s

/-- 0x50 `BVC $tttt` (R267). -/
def execBvc (d : Byte) (s : State) : Result :=
  runHandler .rel (branchVC d) s

/-- 0x70 `BVS $tttt` (R268). -/
def execBvs (d : Byte) (s : State) : Result :=
  runHandler .rel (branchVS d) s

end Sys2Proof.Machine
end

