-- ==== Sys2Proof/Machine/FlagsStackHalt.lean ====
section
/-! DEFINITION. CLC, CLD, CLI, CLV, PHA, PHP, PLA, PLP, BRK (48_flags_stack_halt.md). -/

namespace Sys2Proof.Machine

/-! ## Handlers -/

/-- CLC (R300): `P.C <- 0`. -/
def clc : Handler := fun s => (s.setFlag .C false, .advance)

/-- CLD (R301): `P.D <- 0`. -/
def cld : Handler := fun s => (s.setFlag .D false, .advance)

/-- CLI (R302): `P.I <- 0`. -/
def cli : Handler := fun s => (s.setFlag .I false, .advance)

/-- CLV (R303): `P.V <- 0`. -/
def clv : Handler := fun s => (s.setFlag .V false, .advance)

/-- PHA (R304). -/
def pha : Handler := fun s => (s.push s.a, .advance)

/-- PHP (R305): all 8 bits as they stand (D8). -/
def php : Handler := fun s => (s.push s.p, .advance)

/-- PLA (R306): `A <- Pop(); NZ(A)`. -/
def pla : Handler := fun s =>
  let (v, t) := s.pop
  ((t.setA v).setNZ v, .advance)

/-- PLP (R307): all 8 bits, B and bit 5 included. -/
def plp : Handler := fun s =>
  let (v, t) := s.pop
  (t.setP v, .advance)

/-- BRK (R310): stop the loop; nothing is pushed, no flag is set, no vector is read. -/
def brk : Handler := fun s => (s, .halt)

/-! ## Meanings: one per opcode -/

/-- 0x18 `CLC` (R300). -/
def execClc (s : State) : Result :=
  runHandler .imp clc s

/-- 0xD8 `CLD` (R301). -/
def execCld (s : State) : Result :=
  runHandler .imp cld s

/-- 0x58 `CLI` (R302). -/
def execCli (s : State) : Result :=
  runHandler .imp cli s

/-- 0xB8 `CLV` (R303). -/
def execClv (s : State) : Result :=
  runHandler .imp clv s

/-- 0x48 `PHA` (R304). -/
def execPha (s : State) : Result :=
  runHandler .imp pha s

/-- 0x08 `PHP` (R305). -/
def execPhp (s : State) : Result :=
  runHandler .imp php s

/-- 0x68 `PLA` (R306). -/
def execPla (s : State) : Result :=
  runHandler .imp pla s

/-- 0x28 `PLP` (R307). -/
def execPlp (s : State) : Result :=
  runHandler .imp plp s

/-- 0x00 `BRK` (R310). -/
def execBrk (s : State) : Result :=
  runHandler .imp brk s

end Sys2Proof.Machine
end

