-- ==== Sys2Proof/Machine/IncDec.lean ====
section
/-! DEFINITION. INX, INY, DEX, DEY, INC, DEC (45_increment_decrement.md). -/

namespace Sys2Proof.Machine

/-! ## Handlers -/

/-- INX (R240). -/
def inx : Handler := fun s => ((s.setX (s.x + 1)).setNZ (s.x + 1), .advance)

/-- INY (R241). -/
def iny : Handler := fun s => ((s.setY (s.y + 1)).setNZ (s.y + 1), .advance)

/-- DEX (R242). -/
def dex : Handler := fun s => ((s.setX (s.x - 1)).setNZ (s.x - 1), .advance)

/-- DEY (R243). -/
def dey : Handler := fun s => ((s.setY (s.y - 1)).setNZ (s.y - 1), .advance)

/-- INC (R244): read and write once at one effective address (R103). -/
def incMem (o : Place) : Handler := fun s =>
  let addr := ea o s
  let r := s.readByte addr + 1
  ((s.writeByte addr r).setNZ r, .advance)

/-- DEC (R245): read and write once at one effective address (R103). -/
def decMem (o : Place) : Handler := fun s =>
  let addr := ea o s
  let r := s.readByte addr - 1
  ((s.writeByte addr r).setNZ r, .advance)

/-! ## Meanings: one per opcode -/

/-- 0xE8 `INX` (R240). -/
def execInx (s : State) : Result :=
  runHandler .imp inx s

/-- 0xC8 `INY` (R241). -/
def execIny (s : State) : Result :=
  runHandler .imp iny s

/-- 0xCA `DEX` (R242). -/
def execDex (s : State) : Result :=
  runHandler .imp dex s

/-- 0x88 `DEY` (R243). -/
def execDey (s : State) : Result :=
  runHandler .imp dey s

/-- 0xE6 `INC $nn` (R244). -/
def execIncZp (d : Byte) (s : State) : Result :=
  onPlace (.zp d) incMem s

/-- 0xF6 `INC $nn,X` (R244). -/
def execIncZpX (d : Byte) (s : State) : Result :=
  onPlace (.zpx d) incMem s

/-- 0xEE `INC $nnnn` (R244). -/
def execIncAbs (w : Addr) (s : State) : Result :=
  onPlace (.abs w) incMem s

/-- 0xFE `INC $nnnn,X` (R244). -/
def execIncAbsX (w : Addr) (s : State) : Result :=
  onPlace (.absx w) incMem s

/-- 0xC6 `DEC $nn` (R245). -/
def execDecZp (d : Byte) (s : State) : Result :=
  onPlace (.zp d) decMem s

/-- 0xD6 `DEC $nn,X` (R245). -/
def execDecZpX (d : Byte) (s : State) : Result :=
  onPlace (.zpx d) decMem s

/-- 0xCE `DEC $nnnn` (R245). -/
def execDecAbs (w : Addr) (s : State) : Result :=
  onPlace (.abs w) decMem s

/-- 0xDE `DEC $nnnn,X` (R245). -/
def execDecAbsX (w : Addr) (s : State) : Result :=
  onPlace (.absx w) decMem s

end Sys2Proof.Machine
end

