-- ==== Sys2Proof/Machine/Jumps.lean ====
section
/-! DEFINITION. JMP absolute, JMP indirect, JSR (47_jumps_subroutines.md). -/

namespace Sys2Proof.Machine

/-! ## Handlers -/

/-- JMP (R280, R281): `PC <- EA(mode)`, the word operand itself or the word it points at. -/
def jmp (o : Place) : Handler := fun s => (s.setPc (ea o s), .pcUpdated)

/-- An operand byte of JSR as the handler reads it after its two pushes, in state `t` (R282, D9): the pushed byte if a push
went to its address, else the byte that was fetched. `s` is the state before the pushes. Log
entry 5. -/
def jsrOperandByte (s t : State) (addr : Addr) (fetched : Byte) : Byte :=
  if addr = stackAddr s.sp ∨ addr = stackAddr (s.sp - 1) then t.readByte addr else fetched

/-- JSR (R282): push the address of its last byte, high byte first, then jump to the target, read after the pushes. -/
def jsr (w : Addr) : Handler := fun s =>
  let ret := s.pc + 1
  let t := (s.push (highByte ret)).push (lowByte ret)
  let lo := jsrOperandByte s t s.pc (lowByte w)
  let hi := jsrOperandByte s t (s.pc + 1) (highByte w)
  (t.setPc (wordOf hi lo), .pcUpdated)

/-! ## Meanings: one per opcode -/

/-- 0x4C `JMP $nnnn` (R280). -/
def execJmpAbs (w : Addr) (s : State) : Result :=
  runHandler .abs (jmp (.abs w)) s

/-- 0x6C `JMP ($nnnn)` (R281). -/
def execJmpInd (w : Addr) (s : State) : Result :=
  runHandler .ind (jmp (.ind w)) s

/-- 0x20 `JSR $nnnn` (R282). -/
def execJsr (w : Addr) (s : State) : Result :=
  runHandler .abs (jsr w) s

end Sys2Proof.Machine
end

