-- ==== Sys2Proof/Machine/Loads.lean ====
section
/-! DEFINITION. LDA, LDX, LDY, TAX (41_loads_transfers.md). -/

namespace Sys2Proof.Machine

/-! ## Handlers -/

/-- LDA (R161): `A <- M; NZ(A)`. -/
def lda (o : Source) : Handler := fun s =>
  let m := o.load s
  ((s.setA m).setNZ m, .advance)

/-- LDX (R162): `X <- M; NZ(X)`. -/
def ldx (o : Source) : Handler := fun s =>
  let m := o.load s
  ((s.setX m).setNZ m, .advance)

/-- LDY (R163): `Y <- M; NZ(Y)`. -/
def ldy (o : Source) : Handler := fun s =>
  let m := o.load s
  ((s.setY m).setNZ m, .advance)

/-- TAX (R164): `X <- A; NZ(X)`. -/
def tax : Handler := fun s => ((s.setX s.a).setNZ s.a, .advance)

/-! ## Meanings: one per opcode -/

/-- 0xA9 `LDA #$nn` (R161). -/
def execLdaImm (d : Byte) (s : State) : Result :=
  onSource (.imm d) lda s

/-- 0xA5 `LDA $nn` (R161). -/
def execLdaZp (d : Byte) (s : State) : Result :=
  onSource (.mem (.zp d)) lda s

/-- 0xB5 `LDA $nn,X` (R161). -/
def execLdaZpX (d : Byte) (s : State) : Result :=
  onSource (.mem (.zpx d)) lda s

/-- 0xAD `LDA $nnnn` (R161). -/
def execLdaAbs (w : Addr) (s : State) : Result :=
  onSource (.mem (.abs w)) lda s

/-- 0xBD `LDA $nnnn,X` (R161). -/
def execLdaAbsX (w : Addr) (s : State) : Result :=
  onSource (.mem (.absx w)) lda s

/-- 0xB9 `LDA $nnnn,Y` (R161). -/
def execLdaAbsY (w : Addr) (s : State) : Result :=
  onSource (.mem (.absy w)) lda s

/-- 0xA1 `LDA ($nn,X)` (R161). -/
def execLdaIndX (d : Byte) (s : State) : Result :=
  onSource (.mem (.indx d)) lda s

/-- 0xB1 `LDA ($nn),Y` (R161). -/
def execLdaIndY (d : Byte) (s : State) : Result :=
  onSource (.mem (.indy d)) lda s

/-- 0xA2 `LDX #$nn` (R162). -/
def execLdxImm (d : Byte) (s : State) : Result :=
  onSource (.imm d) ldx s

/-- 0xA6 `LDX $nn` (R162). -/
def execLdxZp (d : Byte) (s : State) : Result :=
  onSource (.mem (.zp d)) ldx s

/-- 0xB6 `LDX $nn,Y` (R162). -/
def execLdxZpY (d : Byte) (s : State) : Result :=
  onSource (.mem (.zpy d)) ldx s

/-- 0xAE `LDX $nnnn` (R162). -/
def execLdxAbs (w : Addr) (s : State) : Result :=
  onSource (.mem (.abs w)) ldx s

/-- 0xBE `LDX $nnnn,Y` (R162). -/
def execLdxAbsY (w : Addr) (s : State) : Result :=
  onSource (.mem (.absy w)) ldx s

/-- 0xA0 `LDY #$nn` (R163). -/
def execLdyImm (d : Byte) (s : State) : Result :=
  onSource (.imm d) ldy s

/-- 0xA4 `LDY $nn` (R163). -/
def execLdyZp (d : Byte) (s : State) : Result :=
  onSource (.mem (.zp d)) ldy s

/-- 0xB4 `LDY $nn,X` (R163). -/
def execLdyZpX (d : Byte) (s : State) : Result :=
  onSource (.mem (.zpx d)) ldy s

/-- 0xAC `LDY $nnnn` (R163). -/
def execLdyAbs (w : Addr) (s : State) : Result :=
  onSource (.mem (.abs w)) ldy s

/-- 0xBC `LDY $nnnn,X` (R163). -/
def execLdyAbsX (w : Addr) (s : State) : Result :=
  onSource (.mem (.absx w)) ldy s

/-- 0xAA `TAX` (R164). -/
def execTax (s : State) : Result :=
  runHandler .imp tax s

end Sys2Proof.Machine
end

