-- ==== Sys2Proof/Machine/Logical.lean ====
section
/-! DEFINITION. AND, EOR, ORA, BIT (43_logical.md). -/

namespace Sys2Proof.Machine

/-! ## Handlers -/

/-- AND (R200): `A <- A & M; NZ(A)`. -/
def andA (o : Source) : Handler := fun s =>
  let r := s.a &&& o.load s
  ((s.setA r).setNZ r, .advance)

/-- EOR (R201): `A <- A ^ M; NZ(A)`. -/
def eorA (o : Source) : Handler := fun s =>
  let r := s.a ^^^ o.load s
  ((s.setA r).setNZ r, .advance)

/-- ORA (R202): `A <- A | M; NZ(A)`. -/
def oraA (o : Source) : Handler := fun s =>
  let r := s.a ||| o.load s
  ((s.setA r).setNZ r, .advance)

/-- BIT (R203): N and V are bits 7 and 6 of M (D4), Z is `A & M == 0`. -/
def bitTest (o : Source) : Handler := fun s =>
  let m := o.load s
  (((s.setFlag .N (m.getLsbD 7)).setFlag .V (m.getLsbD 6)).setFlag .Z (s.a &&& m == 0), .advance)

/-! ## Meanings: one per opcode -/

/-- 0x29 `AND #$nn` (R200). -/
def execAndImm (d : Byte) (s : State) : Result :=
  onSource (.imm d) andA s

/-- 0x25 `AND $nn` (R200). -/
def execAndZp (d : Byte) (s : State) : Result :=
  onSource (.mem (.zp d)) andA s

/-- 0x35 `AND $nn,X` (R200). -/
def execAndZpX (d : Byte) (s : State) : Result :=
  onSource (.mem (.zpx d)) andA s

/-- 0x2D `AND $nnnn` (R200). -/
def execAndAbs (w : Addr) (s : State) : Result :=
  onSource (.mem (.abs w)) andA s

/-- 0x3D `AND $nnnn,X` (R200). -/
def execAndAbsX (w : Addr) (s : State) : Result :=
  onSource (.mem (.absx w)) andA s

/-- 0x39 `AND $nnnn,Y` (R200). -/
def execAndAbsY (w : Addr) (s : State) : Result :=
  onSource (.mem (.absy w)) andA s

/-- 0x21 `AND ($nn,X)` (R200). -/
def execAndIndX (d : Byte) (s : State) : Result :=
  onSource (.mem (.indx d)) andA s

/-- 0x31 `AND ($nn),Y` (R200). -/
def execAndIndY (d : Byte) (s : State) : Result :=
  onSource (.mem (.indy d)) andA s

/-- 0x49 `EOR #$nn` (R201). -/
def execEorImm (d : Byte) (s : State) : Result :=
  onSource (.imm d) eorA s

/-- 0x45 `EOR $nn` (R201). -/
def execEorZp (d : Byte) (s : State) : Result :=
  onSource (.mem (.zp d)) eorA s

/-- 0x55 `EOR $nn,X` (R201). -/
def execEorZpX (d : Byte) (s : State) : Result :=
  onSource (.mem (.zpx d)) eorA s

/-- 0x4D `EOR $nnnn` (R201). -/
def execEorAbs (w : Addr) (s : State) : Result :=
  onSource (.mem (.abs w)) eorA s

/-- 0x5D `EOR $nnnn,X` (R201). -/
def execEorAbsX (w : Addr) (s : State) : Result :=
  onSource (.mem (.absx w)) eorA s

/-- 0x59 `EOR $nnnn,Y` (R201). -/
def execEorAbsY (w : Addr) (s : State) : Result :=
  onSource (.mem (.absy w)) eorA s

/-- 0x41 `EOR ($nn,X)` (R201). -/
def execEorIndX (d : Byte) (s : State) : Result :=
  onSource (.mem (.indx d)) eorA s

/-- 0x51 `EOR ($nn),Y` (R201). -/
def execEorIndY (d : Byte) (s : State) : Result :=
  onSource (.mem (.indy d)) eorA s

/-- 0x09 `ORA #$nn` (R202). -/
def execOraImm (d : Byte) (s : State) : Result :=
  onSource (.imm d) oraA s

/-- 0x05 `ORA $nn` (R202). -/
def execOraZp (d : Byte) (s : State) : Result :=
  onSource (.mem (.zp d)) oraA s

/-- 0x15 `ORA $nn,X` (R202). -/
def execOraZpX (d : Byte) (s : State) : Result :=
  onSource (.mem (.zpx d)) oraA s

/-- 0x0D `ORA $nnnn` (R202). -/
def execOraAbs (w : Addr) (s : State) : Result :=
  onSource (.mem (.abs w)) oraA s

/-- 0x1D `ORA $nnnn,X` (R202). -/
def execOraAbsX (w : Addr) (s : State) : Result :=
  onSource (.mem (.absx w)) oraA s

/-- 0x19 `ORA $nnnn,Y` (R202). -/
def execOraAbsY (w : Addr) (s : State) : Result :=
  onSource (.mem (.absy w)) oraA s

/-- 0x01 `ORA ($nn,X)` (R202). -/
def execOraIndX (d : Byte) (s : State) : Result :=
  onSource (.mem (.indx d)) oraA s

/-- 0x11 `ORA ($nn),Y` (R202). -/
def execOraIndY (d : Byte) (s : State) : Result :=
  onSource (.mem (.indy d)) oraA s

/-- 0x24 `BIT $nn` (R203). -/
def execBitZp (d : Byte) (s : State) : Result :=
  onSource (.mem (.zp d)) bitTest s

/-- 0x2C `BIT $nnnn` (R203). -/
def execBitAbs (w : Addr) (s : State) : Result :=
  onSource (.mem (.abs w)) bitTest s

end Sys2Proof.Machine
end

