-- ==== Sys2Proof/Machine/Shifts.lean ====
section
/-! DEFINITION. ASL, LSR, ROL (44_shifts_rotates.md). -/

namespace Sys2Proof.Machine

/-! ## Handlers -/

/-- Store a shift's result, then write C from the bit shifted out and N, Z from the result (R220). -/
def shiftResult (o : Target) (r : Byte) (c : Bool) (s : State) : State × Disposition :=
  (((o.store r s).setFlag .C c).setNZ r, .advance)

/-- ASL (R221). -/
def asl (o : Target) : Handler := fun s =>
  let (r, c) := shiftLeft (o.load s)
  shiftResult o r c s

/-- LSR (R222). -/
def lsr (o : Target) : Handler := fun s =>
  let (r, c) := shiftRight (o.load s)
  shiftResult o r c s

/-- ROL (R223): the old C is read before it is written. -/
def rol (o : Target) : Handler := fun s =>
  let (r, c) := rotateLeft (o.load s) (s.flag .C)
  shiftResult o r c s

/-! ## Meanings: one per opcode -/

/-- 0x0A `ASL A` (R221). -/
def execAslAcc (s : State) : Result :=
  onTarget .acc asl s

/-- 0x06 `ASL $nn` (R221). -/
def execAslZp (d : Byte) (s : State) : Result :=
  onTarget (.mem (.zp d)) asl s

/-- 0x16 `ASL $nn,X` (R221). -/
def execAslZpX (d : Byte) (s : State) : Result :=
  onTarget (.mem (.zpx d)) asl s

/-- 0x0E `ASL $nnnn` (R221). -/
def execAslAbs (w : Addr) (s : State) : Result :=
  onTarget (.mem (.abs w)) asl s

/-- 0x1E `ASL $nnnn,X` (R221). -/
def execAslAbsX (w : Addr) (s : State) : Result :=
  onTarget (.mem (.absx w)) asl s

/-- 0x4A `LSR A` (R222). -/
def execLsrAcc (s : State) : Result :=
  onTarget .acc lsr s

/-- 0x46 `LSR $nn` (R222). -/
def execLsrZp (d : Byte) (s : State) : Result :=
  onTarget (.mem (.zp d)) lsr s

/-- 0x56 `LSR $nn,X` (R222). -/
def execLsrZpX (d : Byte) (s : State) : Result :=
  onTarget (.mem (.zpx d)) lsr s

/-- 0x4E `LSR $nnnn` (R222). -/
def execLsrAbs (w : Addr) (s : State) : Result :=
  onTarget (.mem (.abs w)) lsr s

/-- 0x5E `LSR $nnnn,X` (R222). -/
def execLsrAbsX (w : Addr) (s : State) : Result :=
  onTarget (.mem (.absx w)) lsr s

/-- 0x2A `ROL A` (R223). -/
def execRolAcc (s : State) : Result :=
  onTarget .acc rol s

/-- 0x26 `ROL $nn` (R223). -/
def execRolZp (d : Byte) (s : State) : Result :=
  onTarget (.mem (.zp d)) rol s

/-- 0x36 `ROL $nn,X` (R223). -/
def execRolZpX (d : Byte) (s : State) : Result :=
  onTarget (.mem (.zpx d)) rol s

/-- 0x2E `ROL $nnnn` (R223). -/
def execRolAbs (w : Addr) (s : State) : Result :=
  onTarget (.mem (.abs w)) rol s

/-- 0x3E `ROL $nnnn,X` (R223). -/
def execRolAbsX (w : Addr) (s : State) : Result :=
  onTarget (.mem (.absx w)) rol s

end Sys2Proof.Machine
end

