-- ==== Sys2Proof/Machine/Step.lean ====
section
/-! DEFINITION. One Step of the fetch–execute loop (40_execution_loop.md R147), and the placing of an instruction where the
next step fetches it. -/

namespace Sys2Proof.Machine

/-- One Step (R147): fetch the opcode at `PC`, look it up, and run its handler; an opcode without an entry raises
UnimplementedOpcode, whose state after is a next state (R331). R147 defines Step only on `Ready`; on any other run status the
step stops by name (log entry 2). -/
def step (s : State) : Host.Outcome State Fault Refusal :=
  match s.status with
  | .ready =>
    match decode3 (s.readByte s.pc) (s.readByte (s.pc + 1)) (s.readByte (s.pc + 2)) with
    | some i => exec i s
    | none => .next (s.raiseUnimplemented (s.readByte s.pc))
  | .halted => .refused .stepWhileHalted
  | .faulted op addr => .fault (.unimplementedOpcode op addr)
  | .loadFailed => .refused (.hostOperation .runAfterLoadFailure)
  | .refused reason => .refused (.hostOperation reason)

/-- `s` with the instruction `w` (its bits above `nbits` zero) stored at `PC`, its three bytes in fetch order, and the run
status `Ready`, so that the next step fetches and runs it. It stands for loading a program (log entry 1). -/
def State.withFetchWord (s : State) (nbits w : Nat) : State :=
  (((s.writeByte s.pc (tableByte nbits w 0)).writeByte (s.pc + 1) (tableByte nbits w 1)).writeByte (s.pc + 2)
    (tableByte nbits w 2)).setStatus .ready

end Sys2Proof.Machine
end

