-- ==== Sys2Proof/Machine/Interface.lean ====
section
/-! DEFINITION. The block's external interface (00_scope.md R5): NewCPU, LoadROM, Reset, LoadAndReset and Run, and the host
action Poke (70_reset_and_hazards.md R377). Each operation is one transition of the CPU value (R6) with an answer. -/

namespace Sys2Proof.Machine

/-- What an operation returns to the host. -/
inductive Answer where
  /-- Success. -/
  | ok
  /-- One of the two errors (R330). -/
  | err (e : Fault)
  /-- The model has no meaning for the operation (R340). -/
  | refused (reason : Refusal)
  /-- `run` only: the embedder's step budget is spent; the CPU is in no stop of the block (R149, D14). -/
  | budgetSpent
  deriving DecidableEq, Repr

/-- The CPU after an operation, with what the operation returned. -/
structure Reply where
  state : State
  answer : Answer
  deriving DecidableEq, Repr

/-- Answer success. -/
def reply (s : State) : Reply := ⟨s, .ok⟩

/-- Refuse an operation (R340): the run status records why, for good. A later operation is refused for the same reason (log
entry 7). -/
def refuse (reason : RefuseReason) (s : State) : Reply := ⟨s.setStatus (.refused reason), .refused (.hostOperation reason)⟩

/-- `NewCPU()` (R360): every register, flag and memory byte 0; `Ready`. -/
def newCPU : State := State.reset

/-! ## Reset -/

/-- What `Reset()` does to the CPU (R369): zero S, A, X, Y, P, load PC from the reset vector. Memory is not changed. -/
def State.resetRegisters (s : State) : State :=
  (((((((s.setSp 0).setA 0).setX 0).setY 0).setP 0).setPc (s.readWord Config.resetVector))).setStatus .ready

/-- `Reset()` (R369, R370). -/
def resetCPU (s : State) : Reply :=
  match s.status with
  | .ready => reply s.resetRegisters
  | .halted => reply s.resetRegisters
  | .faulted _ _ => reply s.resetRegisters
  | .loadFailed => refuse .resetAfterLoadFailure s
  | .refused reason => refuse reason s

/-! ## LoadROM -/

/-- Copy bytes from an address upward (R366). -/
def State.copy (s : State) : Addr → List Byte → State
  | _, [] => s
  | addr, v :: rest => State.copy (s.writeByte addr v) (addr + 1) rest

/-- The registers of a CPU as a list, each as a word: what a free value may depend on. -/
def State.registers (s : State) : List Addr :=
  [s.pc, s.sp.setWidth 16, s.a.setWidth 16, s.x.setWidth 16, s.y.setWidth 16, s.p.setWidth 16]

/-- The CPU after a failed load of `image` on the CPU `s` (R364): run status `LoadFailed`, and every register and memory byte a
free value ("CPU state is undefined on failure"). Log entry 3. -/
def lostCPU (image : List Byte) (s : State) : State :=
  let lost := Config.lostRegister image s.registers s.mem
  { pc := lost 0
    sp := (lost 1).setWidth 8
    a := (lost 2).setWidth 8
    x := (lost 3).setWidth 8
    y := (lost 4).setWidth 8
    p := (lost 5).setWidth 8
    mem := (Config.lostMemory image s.registers s.mem).foldl (fun m c => Memory.write m c.1.toNat c.2) []
    status := .loadFailed }

/-- LoadROM on a usable CPU: the size check first (R362), then the copy to 0x8000 (R366), then the reset vector (R367).
Images that pass the check but do not fit are refused, and nothing is written (R363, D10). -/
def loadImage (image : List Byte) (s : State) : Reply :=
  if Config.largestImage < image.length then ⟨lostCPU image s, .err .romTooLarge⟩
  else if Config.largestFit < image.length then refuse .imageDoesNotFit s
  else reply ((s.copy Config.romBase image).writeWord Config.resetVector Config.romEntry)

/-- `LoadROM(image)` (R361): registers and run status stay when it succeeds. -/
def loadROM (image : List Byte) (s : State) : Reply :=
  match s.status with
  | .ready => loadImage image s
  | .halted => loadImage image s
  | .faulted _ _ => loadImage image s
  | .loadFailed => refuse .loadAfterLoadFailure s
  | .refused reason => refuse reason s

/-- `LoadAndReset(image)` (R371): LoadROM, then Reset if it succeeded. -/
def loadAndReset (image : List Byte) (s : State) : Reply :=
  let r := loadROM image s
  match r.answer with
  | .ok => resetCPU r.state
  | .err _ => r
  | .refused _ => r
  | .budgetSpent => r

/-! ## Run -/

/-- The loop of `Run` (R148): Steps until Halted or Faulted, at most `budget` of them (R149; log entry 6). -/
def runLoop : Nat → State → Reply
  | 0, s => ⟨s, .budgetSpent⟩
  | n + 1, s =>
    match step s with
    | .next t =>
      match t.status with
      | .ready => runLoop n t
      | .halted => reply t
      | .faulted op addr => ⟨t, .err (.unimplementedOpcode op addr)⟩
      | .loadFailed => refuse .runAfterLoadFailure t
      | .refused reason => refuse reason t
    | .fault e => ⟨s, .err e⟩
    | .refused r => ⟨s, .refused r⟩

/-- `Run()` with a step budget (R148, R149): from `Halted` it goes on at the current PC (D13). -/
def run (budget : Nat) (s : State) : Reply :=
  match s.status with
  | .ready => runLoop budget (s.setStatus .ready)
  | .halted => runLoop budget (s.setStatus .ready)
  | .faulted _ _ => refuse .runAfterFault s
  | .loadFailed => refuse .runAfterLoadFailure s
  | .refused reason => refuse reason s

/-! ## Poke -/

/-- What a Poke sets (R377): one register or one memory byte. -/
inductive PokeTarget where
  | pc (v : Addr)
  | sp (v : Byte)
  | a (v : Byte)
  | x (v : Byte)
  | y (v : Byte)
  | p (v : Byte)
  | mem (addr : Addr) (v : Byte)
  deriving DecidableEq, Repr

/-- Set it; nothing else changes. -/
def State.put (s : State) : PokeTarget → State
  | .pc v => s.setPc v
  | .sp v => s.setSp v
  | .a v => s.setA v
  | .x v => s.setX v
  | .y v => s.setY v
  | .p v => s.setP v
  | .mem addr v => s.writeByte addr v

/-- `Poke` (R377), on a `Ready` CPU only; on any other it has no meaning (log entry 8). -/
def poke (t : PokeTarget) (s : State) : Option State :=
  match s.status with
  | .ready => some (s.put t)
  | .halted => none
  | .faulted _ _ => none
  | .loadFailed => none
  | .refused _ => none

end Sys2Proof.Machine
end

