-- ==== Sys2Proof/Safety.lean ====
section
/-! DEFINITION. What claims are stated in terms of: the invariant of the state, the ends of a run (60_exceptions.md R336), and
which flags and registers an instruction may write (10_state.md R21, R22, R24, R26). -/

namespace Sys2Proof.Machine

/-- The invariant of the state: memory is in its canonical form, so that equal memories are equal data. -/
abbrev Canonical (s : State) : Prop := Memory.wf s.mem = true

/-- The CPU has stopped without an error: its last Step executed BRK (R335, R336). -/
abbrev Halted (s : State) : Prop := s.status = .halted

/-- The CPU has stopped on an opcode without an entry (R331, R336). -/
abbrev Faulted (s : State) : Prop := ∃ op addr, s.status = .faulted op addr

/-- The CPU is usable by the host: its run status is `Ready`, `Halted` or `Faulted` (R361, R370). -/
def Usable (s : State) : Bool :=
  match s.status with
  | .ready => true
  | .halted => true
  | .faulted _ _ => true
  | .loadFailed => false
  | .refused _ => false

/-- `Steps n s t`: `n` Steps lead from `s` to `t`, every one of them a next state. -/
def Steps : Nat → State → State → Prop
  | 0, s, t => s = t
  | n + 1, s, t => ∃ u, step s = .next u ∧ Steps n u t

end Sys2Proof.Machine
end

