-- ==== Sys2Proof/Certificates/Slice0/Obligations.lean ====
section
/-! DEFINITION. The statements for the provers. An instruction's result is stated as the whole next state, so that what the
record update does not name is unchanged; the flag functions it names (`nz`, `putFlag`, `addWithCarry`, `overflow`,
`compareFlags`) and the memory writes it names are stated bit by bit and byte by byte in statements of their own. Addresses
are written out from 30_encoding.md R92 to R100, not through the model's resolver. The opcode bytes are R110's, which the spec
marks as its own decision D1. `Canonical` is the model's own form of memory (log entry 4), which every step keeps;
`run` takes a step budget (log entry 6). -/

open Sys2Proof Sys2Proof.Machine

/-- The bytes `bytes` encode `i`, and executing `i` in `s` gives the next state `t`. -/
def Sys2Proof.RunsTo (i : Instr) (bytes : List Byte) (s t : State) : Prop :=
  (∀ rest, decode (bytes ++ rest) = .ok i rest) ∧ exec i s = .next t

/-! ## Encoding and decoding -/

/-- R111: the ten opcode bytes of the source's scenarios, and the unimplemented one. -/
def Obligations.ShownOpcodesDecode : Prop :=
  ∀ (d lo hi : Byte) (rest : List Byte),
    decode (0xA9 :: d :: rest) = .ok (.ldaImm d) rest ∧
    decode (0xAA :: rest) = .ok .tax rest ∧
    decode (0xE8 :: rest) = .ok .inx rest ∧
    decode (0x00 :: rest) = .ok .brk rest ∧
    decode (0x69 :: d :: rest) = .ok (.adcImm d) rest ∧
    decode (0xB5 :: d :: rest) = .ok (.ldaZpX d) rest ∧
    decode (0x90 :: d :: rest) = .ok (.bcc d) rest ∧
    decode (0xB0 :: d :: rest) = .ok (.bcs d) rest ∧
    decode (0x4C :: lo :: hi :: rest) = .ok (.jmpAbs (hi ++ lo)) rest ∧
    decode (0x20 :: lo :: hi :: rest) = .ok (.jsr (hi ++ lo)) rest ∧
    decode (0xFF :: rest) = .unimplemented 0xFF

/-- R80, R81, R110: the decoder reads back every instruction, every operand value included (R122).
Which opcodes there are is the spec's own decision D1. -/
def Obligations.DecodeEncodeRoundTrip : Prop :=
  ∀ (i : Instr) (rest : List Byte), decode (encode i ++ rest) = .ok i rest

/-- R83, R110, R122: every byte sequence has at most one reading, and it is the encoding of what is read.
Which opcodes there are is the spec's own decision D1; it marks R122 as derived from R110 and R121. -/
def Obligations.DecodeReadsOnlyEncodings : Prop :=
  ∀ (bytes rest : List Byte) (i : Instr), decode bytes = .ok i rest → bytes = encode i ++ rest

/-- The opcode bytes of 30_encoding.md R120, row by row. -/
def Sys2Proof.unimplementedOpcodes : List Byte :=
  [0x02, 0x03, 0x04, 0x07, 0x0B, 0x0C, 0x0F] ++
  [0x12, 0x13, 0x14, 0x17, 0x1A, 0x1B, 0x1C, 0x1F] ++
  [0x22, 0x23, 0x27, 0x2B, 0x2F] ++
  [0x32, 0x33, 0x34, 0x37, 0x38, 0x3A, 0x3B, 0x3C, 0x3F] ++
  [0x40, 0x42, 0x43, 0x44, 0x47, 0x4B, 0x4F] ++
  [0x52, 0x53, 0x54, 0x57, 0x5A, 0x5B, 0x5C, 0x5F] ++
  [0x60, 0x62, 0x63, 0x64, 0x66, 0x67, 0x6A, 0x6B, 0x6E, 0x6F] ++
  [0x72, 0x73, 0x74, 0x76, 0x77, 0x78, 0x7A, 0x7B, 0x7C, 0x7E, 0x7F] ++
  [0x80, 0x81, 0x82, 0x83, 0x84, 0x85, 0x86, 0x87, 0x89, 0x8A, 0x8B, 0x8C, 0x8D, 0x8E, 0x8F] ++
  [0x91, 0x92, 0x93, 0x94, 0x95, 0x96, 0x97, 0x98, 0x99, 0x9A, 0x9B, 0x9C, 0x9D, 0x9E, 0x9F] ++
  [0xA3, 0xA7, 0xA8, 0xAB, 0xAF] ++
  [0xB2, 0xB3, 0xB7, 0xBA, 0xBB, 0xBF] ++
  [0xC2, 0xC3, 0xC7, 0xCB, 0xCF] ++
  [0xD2, 0xD3, 0xD4, 0xD7, 0xDA, 0xDB, 0xDC, 0xDF] ++
  [0xE1, 0xE2, 0xE3, 0xE5, 0xE7, 0xE9, 0xEA, 0xEB, 0xED, 0xEF] ++
  [0xF1, 0xF2, 0xF3, 0xF4, 0xF5, 0xF7, 0xF8, 0xF9, 0xFA, 0xFB, 0xFC, 0xFD, 0xFF]

/-- R120 (its list of bytes), R122: every opcode byte is either an entry or unimplemented.
Which opcodes there are is the spec's own decision D1; it marks R122 as derived from R110 and R121. -/
def Obligations.OpcodesWithoutEntry : Prop :=
  unimplementedOpcodes.length = 142 ∧
  ∀ (op : Byte) (rest : List Byte), decode (op :: rest) = .unimplemented op ↔ op ∈ unimplementedOpcodes

/-- R82: the size table, and "In every mode, size = 1 + the number of operand bytes".
The sizes of (Indirect,X) and Indirect are the spec's own decision D7. -/
def Obligations.EncodedSizeOfEachMode : Prop :=
  Mode.size .imp = 1 ∧
  Mode.size .acc = 1 ∧
  Mode.size .imm = 2 ∧
  Mode.size .zp = 2 ∧
  Mode.size .zpx = 2 ∧
  Mode.size .zpy = 2 ∧
  Mode.size .indy = 2 ∧
  Mode.size .indx = 2 ∧
  Mode.size .rel = 2 ∧
  Mode.size .abs = 3 ∧
  Mode.size .absx = 3 ∧
  Mode.size .absy = 3 ∧
  Mode.size .ind = 3 ∧
  ∀ i : Instr, (encode i).length = i.mode.size ∧ i.mode.size = 1 + i.mode.operandBytes

/-! ## One Step -/

/-- R147 steps 1, 3 and 5 (the PC moves of steps 2 and 6 are part of `exec`: `PcAfterInstruction`). -/
def Obligations.StepRunsDecodedInstruction : Prop :=
  ∀ (s : State) (i : Instr) (rest : List Byte), s.status = .ready →
    decode [s.readByte s.pc, s.readByte (s.pc + 1), s.readByte (s.pc + 2)] = .ok i rest → step s = exec i s

/-- R147, R151, R81: only the instruction's own bytes matter. -/
def Obligations.StepRunsInstructionInMemory : Prop :=
  ∀ (s : State) (i : Instr), s.status = .ready →
    (∀ k (h : k < (encode i).length), s.readByte (s.pc + BitVec.ofNat 16 k) = (encode i)[k]) → step s = exec i s

/-- R121 (and R331, its state after). That the step answers this state as a next state is the model's choice, log entry 2.
The recorded fields are the spec's own decision D24. -/
def Obligations.UnimplementedOpcodeFaults : Prop :=
  ∀ s : State, s.status = .ready → s.readByte s.pc ∈ unimplementedOpcodes →
    step s = .next { s with pc := s.pc + 1, status := .faulted (s.readByte s.pc) s.pc }

/-- R147 defines Step on `Ready` only; what the model answers elsewhere is its choice, log entry 2. -/
def Obligations.StepStopsUnlessReady : Prop :=
  ∀ s : State,
    (s.status = .halted → step s = .refused .stepWhileHalted) ∧
    (∀ op addr, s.status = .faulted op addr → step s = .fault (.unimplementedOpcode op addr)) ∧
    (s.status = .loadFailed → step s = .refused (.hostOperation .runAfterLoadFailure)) ∧
    (∀ r, s.status = .refused r → step s = .refused (.hostOperation r))

/-- R333 ("Nothing else is an error"), R142, R147 step 7: each of the 114 constructors completes in every state.
The spec marks R142's list of dispositions as derived from the handler rules. -/
def Obligations.EveryInstructionCompletes : Prop :=
  ∀ (i : Instr) (s : State), ∃ t, exec i s = .next t ∧ t.status = if i = .brk then .halted else s.status

/-- R147, R337, R16: one event at most. A faulted state as a next state is the model's choice, log entry 2.
The spec marks R16 and R337 as derived; the recorded fields are its own decision D24. -/
def Obligations.ReadyStepHasOneOutcome : Prop :=
  ∀ s : State, s.status = .ready → ∃ t, step s = .next t ∧
    t.status = if s.readByte s.pc = 0x00 then .halted
      else if s.readByte s.pc ∈ unimplementedOpcodes then .faulted (s.readByte s.pc) s.pc else .ready

/-- Whether a branch is taken, from the bits of `P` (R261 to R268); false for every other instruction. -/
def Sys2Proof.branchTaken (i : Instr) (p : Byte) : Bool :=
  match i.mnemonic with
  | .BCC => !p.getLsbD 0
  | .BCS => p.getLsbD 0
  | .BEQ => p.getLsbD 1
  | .BNE => !p.getLsbD 1
  | .BMI => p.getLsbD 7
  | .BPL => !p.getLsbD 7
  | .BVC => !p.getLsbD 6
  | .BVS => p.getLsbD 6
  | _ => false

/-- R150: every handler that returns Continue or Halt.
The spec marks R150 as derived from R143, R144 and R146. -/
def Obligations.PcAfterInstruction : Prop :=
  ∀ (i : Instr) (s t : State), exec i s = .next t → i.mnemonic ≠ .JMP → i.mnemonic ≠ .JSR →
    branchTaken i s.p = false → t.pc = s.pc + BitVec.ofNat 16 (encode i).length

/-! ## The canonical form of memory -/

/-- The model's own canonical form of R32's memory (log entry 4). -/
def Obligations.ResetIsCanonical : Prop :=
  Canonical State.reset

/-- The model's own canonical form of R32's memory (log entry 4), kept by every instruction. -/
def Obligations.StepKeepsCanonicalMemory : Prop :=
  ∀ s t : State, Canonical s → step s = .next t → Canonical t

/-- R5's operations and the model's canonical form (log entry 4); holds for every value of the free values of log entry 3. -/
def Obligations.HostOperationsKeepCanonicalMemory : Prop :=
  ∀ (s : State) (image : List Byte) (n : Nat) (g : PokeTarget), Canonical s →
    Canonical (loadROM image s).state ∧ Canonical (resetCPU s).state ∧ Canonical (loadAndReset image s).state ∧ Canonical (run n s).state ∧
    ∀ t, poke g s = some t → Canonical t

/-- R32: memory is an array of bytes; the canonical form (log entry 4) represents each array once. -/
def Obligations.EqualReadsMeanEqualMemory : Prop :=
  ∀ s t : State, Canonical s → Canonical t → (∀ addr : Addr, s.readByte addr = t.readByte addr) → s.mem = t.mem

/-! ## Memory and the stack -/

/-- R50: any address, any byte; neither faults. -/
def Obligations.ByteWriteThenRead : Prop :=
  ∀ (s : State) (addr : Addr) (v : Byte), Canonical s →
    (∀ b : Addr, (s.writeByte addr v).readByte b = if b = addr then v else s.readByte b) ∧
    (s.writeByte addr v) = { s with mem := (s.writeByte addr v).mem }

/-- R51, R52.
That the second address wraps is the spec's own decision D5. -/
def Obligations.WordAccessesAreLittleEndian : Prop :=
  ∀ (s : State) (addr v : Addr), Canonical s →
    (s.readWord addr).toNat = (s.readByte addr).toNat + 256 * (s.readByte (addr + 1)).toNat ∧
    ((s.writeWord addr v).readByte addr).toNat = v.toNat % 256 ∧
    ((s.writeWord addr v).readByte (addr + 1)).toNat = v.toNat / 256 ∧
    ∀ b : Addr, b ≠ addr → b ≠ addr + 1 → (s.writeWord addr v).readByte b = s.readByte b

/-- R54, R55.
The stack's direction is the spec's own decision D2. -/
def Obligations.PushThenPopRestores : Prop :=
  ∀ (s : State) (v : Byte), Canonical s →
    (∀ b : Addr, (s.push v).readByte b = if b.toNat = 0x0100 + s.sp.toNat then v else s.readByte b) ∧
    s.push v = { s with mem := (s.push v).mem, sp := s.sp - 1 } ∧
    (s.push v).pop.1 = v ∧ (s.push v).pop.2.sp = s.sp ∧
    s.pop.1 = s.readByte (0x0100 + (s.sp + 1).setWidth 16) ∧ s.pop.2 = { s with sp := s.sp + 1 }

/-! ## Effective addresses -/

/-- R91 to R100, as arithmetic on numbers. `word n` is the word read at address `n`.
The wraps and the pointers' high bytes are the spec's own decisions D5 and D6. -/
def Obligations.EffectiveAddressOfEachMode : Prop :=
  ∀ s : State,
    let d := s.readByte s.pc
    let w := s.readWord s.pc
    let word : Nat → Nat := fun n =>
      (s.readByte (BitVec.ofNat 16 n)).toNat + 256 * (s.readByte (BitVec.ofNat 16 ((n + 1) % 65536))).toNat
    resolve (.imm d) s = some s.pc ∧ Source.load (.imm d) s = s.readByte s.pc ∧
    (ea (.zp d) s).toNat = d.toNat ∧
    (ea (.zpx d) s).toNat = (d.toNat + s.x.toNat) % 256 ∧
    (ea (.zpy d) s).toNat = (d.toNat + s.y.toNat) % 256 ∧
    w.toNat = word s.pc.toNat ∧ ea (.abs w) s = w ∧
    (ea (.absx w) s).toNat = (w.toNat + s.x.toNat) % 65536 ∧
    (ea (.absy w) s).toNat = (w.toNat + s.y.toNat) % 65536 ∧
    (ea (.ind w) s).toNat = word w.toNat ∧
    (ea (.indx d) s).toNat = word ((d.toNat + s.x.toNat) % 256) ∧
    (ea (.indy d) s).toNat = (word d.toNat + s.y.toNat) % 65536

/-- R104. -/
def Obligations.ZeroPageIndexedStaysInPageZero : Prop :=
  ∀ (s : State) (d : Byte), (ea (.zpx d) s).toNat < 0x100 ∧ (ea (.zpy d) s).toNat < 0x100

/-! ## The flag engine -/

/-- R130. -/
def Obligations.NzWritesTwoBits : Prop :=
  ∀ (v p : Byte) (k : Nat), k < 8 →
    (nz v p).getLsbD k = if k = 7 then v.getLsbD 7 else if k = 1 then decide (v.toNat = 0) else p.getLsbD k

/-- R131. -/
def Obligations.FlagWriteChangesOneBit : Prop :=
  ∀ (p : Byte) (b : Bool) (fk : Flag × Nat),
    fk ∈ [(.N, 7), (.V, 6), (.B, 4), (.D, 3), (.I, 2), (.Z, 1), (.C, 0)] →
    testFlag fk.1 p = p.getLsbD fk.2 ∧ fk.1.mask = BitVec.ofNat 8 (2 ^ fk.2) ∧
    putFlag fk.1 b p = (p &&& ~~~fk.1.mask) ||| (if b then fk.1.mask else 0) ∧
    ∀ k < 8, (putFlag fk.1 b p).getLsbD k = if k = fk.2 then b else p.getLsbD k

/-- R132, R135; the last clause is what R135 names: "signed overflow of an addition".
The overflow rule is the spec's own decision D3. -/
def Obligations.AddWithCarryIsTheIntegerSum : Prop :=
  ∀ (a b r : Byte) (cin : Bool),
    (addWithCarry a b cin).1.toNat + 256 * (addWithCarry a b cin).2.toNat = a.toNat + b.toNat + cin.toNat ∧
    overflow a b r = (((a ^^^ r) &&& (b ^^^ r) &&& 0x80) != 0) ∧
    (overflow a b r = true ↔ a.getLsbD 7 = b.getLsbD 7 ∧ r.getLsbD 7 ≠ a.getLsbD 7) ∧
    (overflow a b (addWithCarry a b cin).1 = true ↔
      a.toInt + b.toInt + cin.toNat < -128 ∨ 127 < a.toInt + b.toInt + cin.toNat)

/-- R133, R134, and the r and c of R223. -/
def Obligations.ShiftsMoveOneBit : Prop :=
  ∀ (v : Byte) (c : Bool),
    ((shiftLeft v).1.toNat = 2 * v.toNat % 256 ∧ (shiftLeft v).2 = v.getLsbD 7) ∧
    ((shiftRight v).1.toNat = v.toNat / 2 ∧ (shiftRight v).2 = v.getLsbD 0) ∧
    (rotateLeft v c).1.toNat = (2 * v.toNat + c.toNat) % 256 ∧ (rotateLeft v c).2 = v.getLsbD 7

/-- R180 (that no register is written is `ComparesWriteFlagsOnly`).
That N is bit 7 of the wrapped difference, also where r is below m, is the spec's own decision D20. -/
def Obligations.CompareSetsThreeFlags : Prop :=
  ∀ (r m p : Byte) (k : Nat), k < 8 →
    (compareFlags r m p).getLsbD k =
      if k = 0 then decide (m.toNat ≤ r.toNat)
      else if k = 1 then decide (r = m)
      else if k = 7 then decide (128 ≤ (256 + r.toNat - m.toNat) % 256)
      else p.getLsbD k

/-! ## Loads and transfers -/

/-- R161 in every form.
The 16-bit wraps of indexed addresses and where a pointer's high byte lies are the spec's own decisions D5 and D6. -/
def Obligations.LdaLoadsAccumulator : Prop :=
  ∀ (s : State) (d lo hi : Byte),
    RunsTo (.ldaImm d) [0xA9, d] s
      { s with a := d, p := nz d s.p, pc := s.pc + 2 } ∧
    RunsTo (.ldaZp d) [0xA5, d] s
      { s with a := (s.readByte (d.setWidth 16)), p := nz (s.readByte (d.setWidth 16)) s.p, pc := s.pc + 2 } ∧
    RunsTo (.ldaZpX d) [0xB5, d] s
      { s with a := (s.readByte ((d + s.x).setWidth 16)), p := nz (s.readByte ((d + s.x).setWidth 16)) s.p, pc := s.pc + 2 } ∧
    RunsTo (.ldaAbs (hi ++ lo)) [0xAD, lo, hi] s
      { s with a := (s.readByte (hi ++ lo)), p := nz (s.readByte (hi ++ lo)) s.p, pc := s.pc + 3 } ∧
    RunsTo (.ldaAbsX (hi ++ lo)) [0xBD, lo, hi] s
      { s with a := (s.readByte (hi ++ lo + s.x.setWidth 16)), p := nz (s.readByte (hi ++ lo + s.x.setWidth 16)) s.p, pc := s.pc + 3 } ∧
    RunsTo (.ldaAbsY (hi ++ lo)) [0xB9, lo, hi] s
      { s with a := (s.readByte (hi ++ lo + s.y.setWidth 16)), p := nz (s.readByte (hi ++ lo + s.y.setWidth 16)) s.p, pc := s.pc + 3 } ∧
    RunsTo (.ldaIndX d) [0xA1, d] s
      { s with a := (s.readByte (s.readWord ((d + s.x).setWidth 16))), p := nz (s.readByte (s.readWord ((d + s.x).setWidth 16))) s.p, pc := s.pc + 2 } ∧
    RunsTo (.ldaIndY d) [0xB1, d] s
      { s with a := (s.readByte (s.readWord (d.setWidth 16) + s.y.setWidth 16)), p := nz (s.readByte (s.readWord (d.setWidth 16) + s.y.setWidth 16)) s.p, pc := s.pc + 2 }

/-- R162, R163, R164 in every form.
The 16-bit wrap of an indexed address is the spec's own decision D5 (absolute,X and absolute,Y). -/
def Obligations.IndexRegistersLoad : Prop :=
  ∀ (s : State) (d lo hi : Byte),
    RunsTo (.ldxImm d) [0xA2, d] s
      { s with x := d, p := nz d s.p, pc := s.pc + 2 } ∧
    RunsTo (.ldxZp d) [0xA6, d] s
      { s with x := (s.readByte (d.setWidth 16)), p := nz (s.readByte (d.setWidth 16)) s.p, pc := s.pc + 2 } ∧
    RunsTo (.ldxZpY d) [0xB6, d] s
      { s with x := (s.readByte ((d + s.y).setWidth 16)), p := nz (s.readByte ((d + s.y).setWidth 16)) s.p, pc := s.pc + 2 } ∧
    RunsTo (.ldxAbs (hi ++ lo)) [0xAE, lo, hi] s
      { s with x := (s.readByte (hi ++ lo)), p := nz (s.readByte (hi ++ lo)) s.p, pc := s.pc + 3 } ∧
    RunsTo (.ldxAbsY (hi ++ lo)) [0xBE, lo, hi] s
      { s with x := (s.readByte (hi ++ lo + s.y.setWidth 16)), p := nz (s.readByte (hi ++ lo + s.y.setWidth 16)) s.p, pc := s.pc + 3 } ∧
    RunsTo (.ldyImm d) [0xA0, d] s
      { s with y := d, p := nz d s.p, pc := s.pc + 2 } ∧
    RunsTo (.ldyZp d) [0xA4, d] s
      { s with y := (s.readByte (d.setWidth 16)), p := nz (s.readByte (d.setWidth 16)) s.p, pc := s.pc + 2 } ∧
    RunsTo (.ldyZpX d) [0xB4, d] s
      { s with y := (s.readByte ((d + s.x).setWidth 16)), p := nz (s.readByte ((d + s.x).setWidth 16)) s.p, pc := s.pc + 2 } ∧
    RunsTo (.ldyAbs (hi ++ lo)) [0xAC, lo, hi] s
      { s with y := (s.readByte (hi ++ lo)), p := nz (s.readByte (hi ++ lo)) s.p, pc := s.pc + 3 } ∧
    RunsTo (.ldyAbsX (hi ++ lo)) [0xBC, lo, hi] s
      { s with y := (s.readByte (hi ++ lo + s.x.setWidth 16)), p := nz (s.readByte (hi ++ lo + s.x.setWidth 16)) s.p, pc := s.pc + 3 } ∧
    RunsTo .tax [0xAA] s
      { s with x := s.a, p := nz s.a s.p, pc := s.pc + 1 }

/-! ## Arithmetic and compare -/

/-- The state after ADC of the byte `m`, with PC at `next` (R181): V from the old A, then A, C, N and Z. -/
def Sys2Proof.adcResult (s : State) (m : Byte) (next : Addr) : State :=
  let sum := addWithCarry s.a m (s.p.getLsbD 0)
  { s with
    a := sum.1
    p := nz sum.1 (putFlag .C sum.2 (putFlag .V (overflow s.a m sum.1) s.p))
    pc := next }

/-- R181 in every form; C is bit 0 of P.
That ADC writes V, and how, is the spec's own decision D3. The 16-bit wraps of indexed addresses and where a pointer's high byte
lies are the spec's own decisions D5 and D6. -/
def Obligations.AdcAddsWithCarry : Prop :=
  ∀ (s : State) (d lo hi : Byte),
    RunsTo (.adcImm d) [0x69, d] s
      (adcResult s d (s.pc + 2)) ∧
    RunsTo (.adcZp d) [0x65, d] s
      (adcResult s (s.readByte (d.setWidth 16)) (s.pc + 2)) ∧
    RunsTo (.adcZpX d) [0x75, d] s
      (adcResult s (s.readByte ((d + s.x).setWidth 16)) (s.pc + 2)) ∧
    RunsTo (.adcAbs (hi ++ lo)) [0x6D, lo, hi] s
      (adcResult s (s.readByte (hi ++ lo)) (s.pc + 3)) ∧
    RunsTo (.adcAbsX (hi ++ lo)) [0x7D, lo, hi] s
      (adcResult s (s.readByte (hi ++ lo + s.x.setWidth 16)) (s.pc + 3)) ∧
    RunsTo (.adcAbsY (hi ++ lo)) [0x79, lo, hi] s
      (adcResult s (s.readByte (hi ++ lo + s.y.setWidth 16)) (s.pc + 3)) ∧
    RunsTo (.adcIndX d) [0x61, d] s
      (adcResult s (s.readByte (s.readWord ((d + s.x).setWidth 16))) (s.pc + 2)) ∧
    RunsTo (.adcIndY d) [0x71, d] s
      (adcResult s (s.readByte (s.readWord (d.setWidth 16) + s.y.setWidth 16)) (s.pc + 2))

/-- R182, R183, R184 in every form.
The 16-bit wraps of indexed addresses and where a pointer's high byte lies are the spec's own decisions D5 and D6. -/
def Obligations.ComparesWriteFlagsOnly : Prop :=
  ∀ (s : State) (d lo hi : Byte),
    RunsTo (.cmpImm d) [0xC9, d] s
      { s with p := compareFlags s.a d s.p, pc := s.pc + 2 } ∧
    RunsTo (.cmpZp d) [0xC5, d] s
      { s with p := compareFlags s.a (s.readByte (d.setWidth 16)) s.p, pc := s.pc + 2 } ∧
    RunsTo (.cmpZpX d) [0xD5, d] s
      { s with p := compareFlags s.a (s.readByte ((d + s.x).setWidth 16)) s.p, pc := s.pc + 2 } ∧
    RunsTo (.cmpAbs (hi ++ lo)) [0xCD, lo, hi] s
      { s with p := compareFlags s.a (s.readByte (hi ++ lo)) s.p, pc := s.pc + 3 } ∧
    RunsTo (.cmpAbsX (hi ++ lo)) [0xDD, lo, hi] s
      { s with p := compareFlags s.a (s.readByte (hi ++ lo + s.x.setWidth 16)) s.p, pc := s.pc + 3 } ∧
    RunsTo (.cmpAbsY (hi ++ lo)) [0xD9, lo, hi] s
      { s with p := compareFlags s.a (s.readByte (hi ++ lo + s.y.setWidth 16)) s.p, pc := s.pc + 3 } ∧
    RunsTo (.cmpIndX d) [0xC1, d] s
      { s with p := compareFlags s.a (s.readByte (s.readWord ((d + s.x).setWidth 16))) s.p, pc := s.pc + 2 } ∧
    RunsTo (.cmpIndY d) [0xD1, d] s
      { s with p := compareFlags s.a (s.readByte (s.readWord (d.setWidth 16) + s.y.setWidth 16)) s.p, pc := s.pc + 2 } ∧
    RunsTo (.cpxImm d) [0xE0, d] s
      { s with p := compareFlags s.x d s.p, pc := s.pc + 2 } ∧
    RunsTo (.cpxZp d) [0xE4, d] s
      { s with p := compareFlags s.x (s.readByte (d.setWidth 16)) s.p, pc := s.pc + 2 } ∧
    RunsTo (.cpxAbs (hi ++ lo)) [0xEC, lo, hi] s
      { s with p := compareFlags s.x (s.readByte (hi ++ lo)) s.p, pc := s.pc + 3 } ∧
    RunsTo (.cpyImm d) [0xC0, d] s
      { s with p := compareFlags s.y d s.p, pc := s.pc + 2 } ∧
    RunsTo (.cpyZp d) [0xC4, d] s
      { s with p := compareFlags s.y (s.readByte (d.setWidth 16)) s.p, pc := s.pc + 2 } ∧
    RunsTo (.cpyAbs (hi ++ lo)) [0xCC, lo, hi] s
      { s with p := compareFlags s.y (s.readByte (hi ++ lo)) s.p, pc := s.pc + 3 }

/-! ## Logical operations -/

/-- R200, R201, R202 in every form.
The 16-bit wraps of indexed addresses and where a pointer's high byte lies are the spec's own decisions D5 and D6. -/
def Obligations.LogicIntoAccumulator : Prop :=
  ∀ (s : State) (d lo hi : Byte),
    RunsTo (.andImm d) [0x29, d] s
      { s with a := s.a &&& d, p := nz (s.a &&& d) s.p, pc := s.pc + 2 } ∧
    RunsTo (.andZp d) [0x25, d] s
      { s with a := s.a &&& (s.readByte (d.setWidth 16)), p := nz (s.a &&& (s.readByte (d.setWidth 16))) s.p, pc := s.pc + 2 } ∧
    RunsTo (.andZpX d) [0x35, d] s
      { s with a := s.a &&& (s.readByte ((d + s.x).setWidth 16)), p := nz (s.a &&& (s.readByte ((d + s.x).setWidth 16))) s.p, pc := s.pc + 2 } ∧
    RunsTo (.andAbs (hi ++ lo)) [0x2D, lo, hi] s
      { s with a := s.a &&& (s.readByte (hi ++ lo)), p := nz (s.a &&& (s.readByte (hi ++ lo))) s.p, pc := s.pc + 3 } ∧
    RunsTo (.andAbsX (hi ++ lo)) [0x3D, lo, hi] s
      { s with a := s.a &&& (s.readByte (hi ++ lo + s.x.setWidth 16)), p := nz (s.a &&& (s.readByte (hi ++ lo + s.x.setWidth 16))) s.p, pc := s.pc + 3 } ∧
    RunsTo (.andAbsY (hi ++ lo)) [0x39, lo, hi] s
      { s with a := s.a &&& (s.readByte (hi ++ lo + s.y.setWidth 16)), p := nz (s.a &&& (s.readByte (hi ++ lo + s.y.setWidth 16))) s.p, pc := s.pc + 3 } ∧
    RunsTo (.andIndX d) [0x21, d] s
      { s with a := s.a &&& (s.readByte (s.readWord ((d + s.x).setWidth 16))), p := nz (s.a &&& (s.readByte (s.readWord ((d + s.x).setWidth 16)))) s.p, pc := s.pc + 2 } ∧
    RunsTo (.andIndY d) [0x31, d] s
      { s with a := s.a &&& (s.readByte (s.readWord (d.setWidth 16) + s.y.setWidth 16)), p := nz (s.a &&& (s.readByte (s.readWord (d.setWidth 16) + s.y.setWidth 16))) s.p, pc := s.pc + 2 } ∧
    RunsTo (.eorImm d) [0x49, d] s
      { s with a := s.a ^^^ d, p := nz (s.a ^^^ d) s.p, pc := s.pc + 2 } ∧
    RunsTo (.eorZp d) [0x45, d] s
      { s with a := s.a ^^^ (s.readByte (d.setWidth 16)), p := nz (s.a ^^^ (s.readByte (d.setWidth 16))) s.p, pc := s.pc + 2 } ∧
    RunsTo (.eorZpX d) [0x55, d] s
      { s with a := s.a ^^^ (s.readByte ((d + s.x).setWidth 16)), p := nz (s.a ^^^ (s.readByte ((d + s.x).setWidth 16))) s.p, pc := s.pc + 2 } ∧
    RunsTo (.eorAbs (hi ++ lo)) [0x4D, lo, hi] s
      { s with a := s.a ^^^ (s.readByte (hi ++ lo)), p := nz (s.a ^^^ (s.readByte (hi ++ lo))) s.p, pc := s.pc + 3 } ∧
    RunsTo (.eorAbsX (hi ++ lo)) [0x5D, lo, hi] s
      { s with a := s.a ^^^ (s.readByte (hi ++ lo + s.x.setWidth 16)), p := nz (s.a ^^^ (s.readByte (hi ++ lo + s.x.setWidth 16))) s.p, pc := s.pc + 3 } ∧
    RunsTo (.eorAbsY (hi ++ lo)) [0x59, lo, hi] s
      { s with a := s.a ^^^ (s.readByte (hi ++ lo + s.y.setWidth 16)), p := nz (s.a ^^^ (s.readByte (hi ++ lo + s.y.setWidth 16))) s.p, pc := s.pc + 3 } ∧
    RunsTo (.eorIndX d) [0x41, d] s
      { s with a := s.a ^^^ (s.readByte (s.readWord ((d + s.x).setWidth 16))), p := nz (s.a ^^^ (s.readByte (s.readWord ((d + s.x).setWidth 16)))) s.p, pc := s.pc + 2 } ∧
    RunsTo (.eorIndY d) [0x51, d] s
      { s with a := s.a ^^^ (s.readByte (s.readWord (d.setWidth 16) + s.y.setWidth 16)), p := nz (s.a ^^^ (s.readByte (s.readWord (d.setWidth 16) + s.y.setWidth 16))) s.p, pc := s.pc + 2 } ∧
    RunsTo (.oraImm d) [0x09, d] s
      { s with a := s.a ||| d, p := nz (s.a ||| d) s.p, pc := s.pc + 2 } ∧
    RunsTo (.oraZp d) [0x05, d] s
      { s with a := s.a ||| (s.readByte (d.setWidth 16)), p := nz (s.a ||| (s.readByte (d.setWidth 16))) s.p, pc := s.pc + 2 } ∧
    RunsTo (.oraZpX d) [0x15, d] s
      { s with a := s.a ||| (s.readByte ((d + s.x).setWidth 16)), p := nz (s.a ||| (s.readByte ((d + s.x).setWidth 16))) s.p, pc := s.pc + 2 } ∧
    RunsTo (.oraAbs (hi ++ lo)) [0x0D, lo, hi] s
      { s with a := s.a ||| (s.readByte (hi ++ lo)), p := nz (s.a ||| (s.readByte (hi ++ lo))) s.p, pc := s.pc + 3 } ∧
    RunsTo (.oraAbsX (hi ++ lo)) [0x1D, lo, hi] s
      { s with a := s.a ||| (s.readByte (hi ++ lo + s.x.setWidth 16)), p := nz (s.a ||| (s.readByte (hi ++ lo + s.x.setWidth 16))) s.p, pc := s.pc + 3 } ∧
    RunsTo (.oraAbsY (hi ++ lo)) [0x19, lo, hi] s
      { s with a := s.a ||| (s.readByte (hi ++ lo + s.y.setWidth 16)), p := nz (s.a ||| (s.readByte (hi ++ lo + s.y.setWidth 16))) s.p, pc := s.pc + 3 } ∧
    RunsTo (.oraIndX d) [0x01, d] s
      { s with a := s.a ||| (s.readByte (s.readWord ((d + s.x).setWidth 16))), p := nz (s.a ||| (s.readByte (s.readWord ((d + s.x).setWidth 16)))) s.p, pc := s.pc + 2 } ∧
    RunsTo (.oraIndY d) [0x11, d] s
      { s with a := s.a ||| (s.readByte (s.readWord (d.setWidth 16) + s.y.setWidth 16)), p := nz (s.a ||| (s.readByte (s.readWord (d.setWidth 16) + s.y.setWidth 16))) s.p, pc := s.pc + 2 }

/-- R203 in both forms.
Where N comes from is the spec's own decision D4. -/
def Obligations.BitTestsOperand : Prop :=
  ∀ (s : State) (d lo hi : Byte),
    RunsTo (.bitZp d) [0x24, d] s
      { s with
        p := putFlag .Z (s.a &&& (s.readByte (d.setWidth 16)) == 0)
          (putFlag .V ((s.readByte (d.setWidth 16)).getLsbD 6) (putFlag .N ((s.readByte (d.setWidth 16)).getLsbD 7) s.p))
        pc := s.pc + 2 } ∧
    RunsTo (.bitAbs (hi ++ lo)) [0x2C, lo, hi] s
      { s with
        p := putFlag .Z (s.a &&& (s.readByte (hi ++ lo)) == 0)
          (putFlag .V ((s.readByte (hi ++ lo)).getLsbD 6) (putFlag .N ((s.readByte (hi ++ lo)).getLsbD 7) s.p))
        pc := s.pc + 3 }

/-! ## Shifts and rotates -/

/-- The state after a shift or rotate of `A` with result `r` and bit `c` shifted out (R220). -/
def Sys2Proof.shiftedA (s : State) (rc : Byte × Bool) : State :=
  { s with a := rc.1, p := nz rc.1 (putFlag .C rc.2 s.p), pc := s.pc + 1 }

/-- The state after a shift or rotate of the byte at `addr`, with PC at `next` (R220). -/
def Sys2Proof.shiftedAt (s : State) (addr : Addr) (rc : Byte × Bool) (next : Addr) : State :=
  { s.writeByte addr rc.1 with p := nz rc.1 (putFlag .C rc.2 s.p), pc := next }

/-- R220 to R223 in every form; C is bit 0 of P.
The 16-bit wrap of an indexed address is the spec's own decision D5 (absolute,X). -/
def Obligations.ShiftsAndRotates : Prop :=
  ∀ (s : State) (d lo hi : Byte),
    RunsTo .aslAcc [0x0A] s
      (shiftedA s (shiftLeft s.a)) ∧
    RunsTo (.aslZp d) [0x06, d] s
      (shiftedAt s (d.setWidth 16) (shiftLeft (s.readByte (d.setWidth 16))) (s.pc + 2)) ∧
    RunsTo (.aslZpX d) [0x16, d] s
      (shiftedAt s ((d + s.x).setWidth 16) (shiftLeft (s.readByte ((d + s.x).setWidth 16))) (s.pc + 2)) ∧
    RunsTo (.aslAbs (hi ++ lo)) [0x0E, lo, hi] s
      (shiftedAt s (hi ++ lo) (shiftLeft (s.readByte (hi ++ lo))) (s.pc + 3)) ∧
    RunsTo (.aslAbsX (hi ++ lo)) [0x1E, lo, hi] s
      (shiftedAt s (hi ++ lo + s.x.setWidth 16) (shiftLeft (s.readByte (hi ++ lo + s.x.setWidth 16))) (s.pc + 3)) ∧
    RunsTo .lsrAcc [0x4A] s
      (shiftedA s (shiftRight s.a)) ∧
    RunsTo (.lsrZp d) [0x46, d] s
      (shiftedAt s (d.setWidth 16) (shiftRight (s.readByte (d.setWidth 16))) (s.pc + 2)) ∧
    RunsTo (.lsrZpX d) [0x56, d] s
      (shiftedAt s ((d + s.x).setWidth 16) (shiftRight (s.readByte ((d + s.x).setWidth 16))) (s.pc + 2)) ∧
    RunsTo (.lsrAbs (hi ++ lo)) [0x4E, lo, hi] s
      (shiftedAt s (hi ++ lo) (shiftRight (s.readByte (hi ++ lo))) (s.pc + 3)) ∧
    RunsTo (.lsrAbsX (hi ++ lo)) [0x5E, lo, hi] s
      (shiftedAt s (hi ++ lo + s.x.setWidth 16) (shiftRight (s.readByte (hi ++ lo + s.x.setWidth 16))) (s.pc + 3)) ∧
    RunsTo .rolAcc [0x2A] s
      (shiftedA s (rotateLeft s.a (s.p.getLsbD 0))) ∧
    RunsTo (.rolZp d) [0x26, d] s
      (shiftedAt s (d.setWidth 16) (rotateLeft (s.readByte (d.setWidth 16)) (s.p.getLsbD 0)) (s.pc + 2)) ∧
    RunsTo (.rolZpX d) [0x36, d] s
      (shiftedAt s ((d + s.x).setWidth 16) (rotateLeft (s.readByte ((d + s.x).setWidth 16)) (s.p.getLsbD 0)) (s.pc + 2)) ∧
    RunsTo (.rolAbs (hi ++ lo)) [0x2E, lo, hi] s
      (shiftedAt s (hi ++ lo) (rotateLeft (s.readByte (hi ++ lo)) (s.p.getLsbD 0)) (s.pc + 3)) ∧
    RunsTo (.rolAbsX (hi ++ lo)) [0x3E, lo, hi] s
      (shiftedAt s (hi ++ lo + s.x.setWidth 16) (rotateLeft (s.readByte (hi ++ lo + s.x.setWidth 16)) (s.p.getLsbD 0)) (s.pc + 3))

/-! ## Increment and decrement -/

/-- R240 to R243. -/
def Obligations.IndexRegistersCount : Prop :=
  ∀ (s : State),
    RunsTo .inx [0xE8] s
      { s with x := s.x + 1, p := nz (s.x + 1) s.p, pc := s.pc + 1 } ∧
    RunsTo .iny [0xC8] s
      { s with y := s.y + 1, p := nz (s.y + 1) s.p, pc := s.pc + 1 } ∧
    RunsTo .dex [0xCA] s
      { s with x := s.x - 1, p := nz (s.x - 1) s.p, pc := s.pc + 1 } ∧
    RunsTo .dey [0x88] s
      { s with y := s.y - 1, p := nz (s.y - 1) s.p, pc := s.pc + 1 }

/-- The state after the byte at `addr` has become `r`, with N and Z from it and PC at `next` (R244, R245). -/
def Sys2Proof.countedAt (s : State) (addr : Addr) (r : Byte) (next : Addr) : State :=
  { s.writeByte addr r with p := nz r s.p, pc := next }

/-- R244, R245 in every form.
The 16-bit wrap of an indexed address is the spec's own decision D5 (absolute,X). -/
def Obligations.MemoryBytesCount : Prop :=
  ∀ (s : State) (d lo hi : Byte),
    RunsTo (.incZp d) [0xE6, d] s
      (countedAt s (d.setWidth 16) ((s.readByte (d.setWidth 16)) + 1) (s.pc + 2)) ∧
    RunsTo (.incZpX d) [0xF6, d] s
      (countedAt s ((d + s.x).setWidth 16) ((s.readByte ((d + s.x).setWidth 16)) + 1) (s.pc + 2)) ∧
    RunsTo (.incAbs (hi ++ lo)) [0xEE, lo, hi] s
      (countedAt s (hi ++ lo) ((s.readByte (hi ++ lo)) + 1) (s.pc + 3)) ∧
    RunsTo (.incAbsX (hi ++ lo)) [0xFE, lo, hi] s
      (countedAt s (hi ++ lo + s.x.setWidth 16) ((s.readByte (hi ++ lo + s.x.setWidth 16)) + 1) (s.pc + 3)) ∧
    RunsTo (.decZp d) [0xC6, d] s
      (countedAt s (d.setWidth 16) ((s.readByte (d.setWidth 16)) - 1) (s.pc + 2)) ∧
    RunsTo (.decZpX d) [0xD6, d] s
      (countedAt s ((d + s.x).setWidth 16) ((s.readByte ((d + s.x).setWidth 16)) - 1) (s.pc + 2)) ∧
    RunsTo (.decAbs (hi ++ lo)) [0xCE, lo, hi] s
      (countedAt s (hi ++ lo) ((s.readByte (hi ++ lo)) - 1) (s.pc + 3)) ∧
    RunsTo (.decAbsX (hi ++ lo)) [0xDE, lo, hi] s
      (countedAt s (hi ++ lo + s.x.setWidth 16) ((s.readByte (hi ++ lo + s.x.setWidth 16)) - 1) (s.pc + 3))

/-! ## Branches, jumps, subroutine call -/

/-- R260 to R268; C, Z, V, N are bits 0, 1, 6, 7 of P.
That the target wraps is the spec's own decision D5. -/
def Obligations.BranchesGoWhereTheirFlagSays : Prop :=
  ∀ (s : State) (d : Byte),
    RunsTo (.bcc d) [0x90, d] s
      { s with pc := if s.p.getLsbD 0 = false then s.pc + 2 + d.signExtend 16 else s.pc + 2 } ∧
    RunsTo (.bcs d) [0xB0, d] s
      { s with pc := if s.p.getLsbD 0 = true then s.pc + 2 + d.signExtend 16 else s.pc + 2 } ∧
    RunsTo (.beq d) [0xF0, d] s
      { s with pc := if s.p.getLsbD 1 = true then s.pc + 2 + d.signExtend 16 else s.pc + 2 } ∧
    RunsTo (.bne d) [0xD0, d] s
      { s with pc := if s.p.getLsbD 1 = false then s.pc + 2 + d.signExtend 16 else s.pc + 2 } ∧
    RunsTo (.bmi d) [0x30, d] s
      { s with pc := if s.p.getLsbD 7 = true then s.pc + 2 + d.signExtend 16 else s.pc + 2 } ∧
    RunsTo (.bpl d) [0x10, d] s
      { s with pc := if s.p.getLsbD 7 = false then s.pc + 2 + d.signExtend 16 else s.pc + 2 } ∧
    RunsTo (.bvc d) [0x50, d] s
      { s with pc := if s.p.getLsbD 6 = false then s.pc + 2 + d.signExtend 16 else s.pc + 2 } ∧
    RunsTo (.bvs d) [0x70, d] s
      { s with pc := if s.p.getLsbD 6 = true then s.pc + 2 + d.signExtend 16 else s.pc + 2 }

/-- R280, R281.
Where the pointer's high byte lies is the spec's own decision D6. -/
def Obligations.JumpsLoadPc : Prop :=
  ∀ (s : State) (lo hi : Byte),
    RunsTo (.jmpAbs (hi ++ lo)) [0x4C, lo, hi] s
      { s with pc := hi ++ lo } ∧
    RunsTo (.jmpInd (hi ++ lo)) [0x6C, lo, hi] s
      { s with pc := s.readWord (hi ++ lo) }

/-- R282, the handler's PC + 1 being the instruction's PC + 2.
The operand bytes are the instruction's own (log entry 5). The order of pushes and operand read is the spec's own decision D9,
the stack's direction its decision D2. -/
def Obligations.JsrPushesThenReadsTarget : Prop :=
  ∀ (s : State) (lo hi : Byte), Canonical s → s.readByte (s.pc + 1) = lo → s.readByte (s.pc + 2) = hi →
    let t := (s.push (highByte (s.pc + 2))).push (lowByte (s.pc + 2))
    RunsTo (.jsr (hi ++ lo)) [0x20, lo, hi] s { t with pc := t.readWord (s.pc + 1) } ∧ t.sp = s.sp - 2

/-- R282 where code does not lie under the stack top. The operand bytes are the instruction's own (log entry 5).
The order of pushes and operand read is the spec's own decision D9, the stack's direction its decision D2. -/
def Obligations.JsrJumpsToItsOperand : Prop :=
  ∀ (s : State) (w : Addr),
    (∀ b : Addr, b = s.pc + 1 ∨ b = s.pc + 2 → b ≠ stackAddr s.sp ∧ b ≠ stackAddr (s.sp - 1)) →
    exec (.jsr w) s = .next { (s.push (highByte (s.pc + 2))).push (lowByte (s.pc + 2)) with pc := w }

/-! ## Flags, stack, halt -/

/-- R300 to R303, by masks of P. -/
def Obligations.FlagsCleared : Prop :=
  ∀ (s : State),
    RunsTo .clc [0x18] s
      { s with p := s.p &&& 0xFE, pc := s.pc + 1 } ∧
    RunsTo .cld [0xD8] s
      { s with p := s.p &&& 0xF7, pc := s.pc + 1 } ∧
    RunsTo .cli [0x58] s
      { s with p := s.p &&& 0xFB, pc := s.pc + 1 } ∧
    RunsTo .clv [0xB8] s
      { s with p := s.p &&& 0xBF, pc := s.pc + 1 }

/-- R304 to R307.
What becomes of B and bit 5 is the spec's own decision D8, the stack's direction its decision D2. -/
def Obligations.StackInstructions : Prop :=
  ∀ s : State,
    let top := s.readByte (0x0100 + (s.sp + 1).setWidth 16)
    RunsTo .pha [0x48] s { s.writeByte (0x0100 + s.sp.setWidth 16) s.a with sp := s.sp - 1, pc := s.pc + 1 } ∧
    RunsTo .php [0x08] s { s.writeByte (0x0100 + s.sp.setWidth 16) s.p with sp := s.sp - 1, pc := s.pc + 1 } ∧
    RunsTo .pla [0x68] s { s with a := top, p := nz top s.p, sp := s.sp + 1, pc := s.pc + 1 } ∧
    RunsTo .plp [0x28] s { s with p := top, sp := s.sp + 1, pc := s.pc + 1 }

/-- R310.
R310's clause on a later Run (the spec's own decision D13) is `RefusalsAndRunAgain`. -/
def Obligations.BrkHalts : Prop :=
  ∀ (s : State),
    RunsTo .brk [0x00] s
      { s with pc := s.pc + 1, status := .halted }

/-- The source's property "after PHA then PLA with no intervening stack ops, A is unchanged" (R304, R306, R55), for every S. -/
def Obligations.PhaThenPlaKeepsA : Prop :=
  ∀ s t u : State, Canonical s → exec .pha s = .next t → exec .pla t = .next u →
    u.a = s.a ∧ u.x = s.x ∧ u.y = s.y ∧ u.sp = s.sp ∧ u.p = nz s.a s.p ∧ u.pc = s.pc + 2 ∧ u.status = s.status

/-! ## Frames: what an instruction leaves unchanged -/

/-- The bits of `P` a mnemonic may write: the "written by" column of 10_state.md R26 (N 0x80, V 0x40, D 0x08, I 0x04, Z 0x02,
C 0x01). -/
def Sys2Proof.flagsWritten : Mnemonic → Byte
  | .LDA | .LDX | .LDY | .TAX | .AND | .EOR | .ORA | .INX | .INY | .DEX | .DEY | .INC | .DEC | .PLA => 0x82
  | .ADC => 0xC3
  | .BIT => 0xC2
  | .CMP | .CPX | .CPY | .ASL | .LSR | .ROL => 0x83
  | .CLC => 0x01
  | .CLD => 0x08
  | .CLI => 0x04
  | .CLV => 0x40
  | .PLP => 0xFF
  | .BCC | .BCS | .BEQ | .BNE | .BMI | .BPL | .BVC | .BVS | .JMP | .JSR | .PHA | .PHP | .BRK => 0x00

/-- R26: "An instruction not named in a flag's "written by" column leaves that flag unchanged".
The spec marks R26's table as derived from the handler rules; that ADC writes V is its own decision D3, what becomes of B and
bit 5 its decision D8. -/
def Obligations.FlagFrame : Prop :=
  ∀ (i : Instr) (s t : State), exec i s = .next t →
    t.p &&& ~~~flagsWritten i.mnemonic = s.p &&& ~~~flagsWritten i.mnemonic

/-- R26: "only PLP or a host action can make them 1"; R307.
The spec marks R26's table as derived from the handler rules; what becomes of B and bit 5 is its own decision D8. -/
def Obligations.OnlyPlpSetsStorageFlags : Prop :=
  ∀ (i : Instr) (s t : State) (k : Nat), exec i s = .next t → i.mnemonic ≠ .PLP → k ∈ [2, 3, 4, 5] →
    t.p.getLsbD k = true → s.p.getLsbD k = true

/-- R21, R22, R24: the instructions that write each register.
The spec marks R21's and R22's lists as derived from the handler rules. -/
def Obligations.RegisterFrame : Prop :=
  ∀ (i : Instr) (s t : State), exec i s = .next t →
    (i.mnemonic ∉ [.LDA, .ADC, .AND, .EOR, .ORA, .PLA] → i.mode ≠ .acc → t.a = s.a) ∧
    (i.mnemonic ∉ [.LDX, .TAX, .INX, .DEX] → t.x = s.x) ∧
    (i.mnemonic ∉ [.LDY, .INY, .DEY] → t.y = s.y) ∧
    (i.mnemonic ∉ [.PHA, .PHP, .PLA, .PLP, .JSR] → t.sp = s.sp)

/-- The instructions of 20_memory.md R58 that store to memory: read-modify-write in a memory mode, and the pushes. -/
def Sys2Proof.storesToMemory (i : Instr) : Bool :=
  match i.mnemonic with
  | .INC | .DEC | .PHA | .PHP | .JSR => true
  | .ASL | .LSR | .ROL => i.mode != .acc
  | _ => false

/-- R58: which instructions write memory.
The spec marks R58 as derived from the handler rules. -/
def Obligations.NonStoringInstructionsKeepMemory : Prop :=
  ∀ (i : Instr) (s t : State), exec i s = .next t → storesToMemory i = false →
    (∀ addr : Addr, t.readByte addr = s.readByte addr) ∧ t.mem = s.mem

/-- R103, R58: one byte, read once and written once at one effective address.
The spec marks R58 and R103 as derived from the handler rules. -/
def Obligations.ReadModifyWriteFrame : Prop :=
  ∀ (i : Instr) (m : Place) (s t : State), Canonical s → exec i s = .next t → i.operand = .mem m →
    i.mnemonic ∈ [.INC, .DEC, .ASL, .LSR, .ROL] →
    let addr := ea m (s.advance 1)
    let v := s.readByte addr
    (∀ b : Addr, b ≠ addr → t.readByte b = s.readByte b) ∧
    (i.mnemonic = .INC → t.readByte addr = v + 1) ∧
    (i.mnemonic = .DEC → t.readByte addr = v - 1) ∧
    (i.mnemonic = .ASL → t.readByte addr = v <<< 1) ∧
    (i.mnemonic = .LSR → t.readByte addr = v >>> 1) ∧
    (i.mnemonic = .ROL → t.readByte addr = v <<< 1 ||| (s.p &&& 1))

/-- R304, R305, R282 (what is pushed), R54, R56: the stored bytes of a push, byte by byte.
The stack's direction, that PHP pushes B and bit 5 as they stand, and JSR's order are the spec's own decisions D2, D8 and D9; it
marks R56 as derived from R54 and R55. -/
def Obligations.StackStoreFrame : Prop :=
  ∀ (s t : State) (w b : Addr), Canonical s →
    (exec .pha s = .next t → t.readByte b = if b = stackAddr s.sp then s.a else s.readByte b) ∧
    (exec .php s = .next t → t.readByte b = if b = stackAddr s.sp then s.p else s.readByte b) ∧
    (exec (.jsr w) s = .next t →
      t.readByte b = if b = stackAddr (s.sp - 1) then lowByte (s.pc + 2)
        else if b = stackAddr s.sp then highByte (s.pc + 2) else s.readByte b)

/-- `p` with bits 5, 4, 3 and 2 (unnamed, B, D, I) taken from `q`. -/
def Sys2Proof.withStorageBits (p q : Byte) : Byte := (p &&& 0xC3) ||| (q &&& 0x3C)

/-- R27 to R30: "`P.D` is storage only. No instruction's result depends on it", and so for B, I and bit 5.
What becomes of bit 5 is the spec's own decision D8; it marks R30 as derived. -/
def Obligations.StorageFlagsInfluenceNothing : Prop :=
  ∀ (i : Instr) (s t : State) (q : Byte), i.mnemonic ∉ [.PHP, .PLP, .CLD, .CLI] → exec i s = .next t →
    exec i { s with p := withStorageBits s.p q } = .next { t with p := withStorageBits t.p q }

/-! ## The host's operations -/

/-- R360 (and R36: `Reset` on it changes nothing).
The spec marks the last clause, the Run, as derived from R360 and R310. -/
def Obligations.NewCpuIsAllZeroAndHaltsAtOnce : Prop :=
  newCPU.pc = 0 ∧ newCPU.sp = 0 ∧ newCPU.a = 0 ∧ newCPU.x = 0 ∧ newCPU.y = 0 ∧ newCPU.p = 0 ∧
  (∀ addr : Addr, newCPU.readByte addr = 0) ∧ newCPU.status = .ready ∧
  newCPU = State.reset ∧ resetCPU newCPU = ⟨State.reset, .ok⟩ ∧
  ∀ n, run (n + 1) newCPU = ⟨{ newCPU with pc := 1, status := .halted }, .ok⟩

/-- R369, on the run statuses of R370.
That X is cleared is the spec's own decision D21, that Reset restarts a Faulted CPU its decision D12. -/
def Obligations.ResetClearsRegistersAndLoadsPc : Prop :=
  ∀ s : State, (s.status = .ready ∨ s.status = .halted ∨ ∃ op addr, s.status = .faulted op addr) →
    resetCPU s =
      ⟨{ pc := s.readWord 0xFFFC, sp := 0, a := 0, x := 0, y := 0, p := 0, mem := s.mem, status := .ready }, .ok⟩

/-- R366, R367 (the vector is written after the copy).
That registers and run status are kept is R361; R361's clause on a LoadFailed CPU (the spec's own decision D11) is
`RefusalsAndRunAgain`. -/
def Obligations.LoadRomPlacesImage : Prop :=
  ∀ (s : State) (image : List Byte), Canonical s → Usable s = true → image.length ≤ 32768 →
    ∃ m, loadROM image s = ⟨{ s with mem := m }, .ok⟩ ∧
      ∀ addr : Addr, Memory.read m addr.toNat =
        if addr = 0xFFFC then 0x00
        else if addr = 0xFFFD then 0x80
        else if h : 0x8000 ≤ addr.toNat ∧ addr.toNat - 0x8000 < image.length then image[addr.toNat - 0x8000]
        else s.readByte addr

/-- R362, R363, and the run status of R364; the lost registers and memory are not spoken of (log entry 3).
The refusal of R363 is the spec's own decision D10; the run status of R364, and what LoadAndReset does when LoadROM fails or is
refused (R371), are its decision D11. -/
def Obligations.LoadRomSizeChecks : Prop :=
  ∀ (s : State) (image : List Byte), Usable s = true →
    (65536 < image.length →
      (loadROM image s).answer = .err .romTooLarge ∧ (loadROM image s).state.status = .loadFailed ∧
      loadAndReset image s = loadROM image s) ∧
    (32768 < image.length → image.length ≤ 65536 →
      loadROM image s = ⟨{ s with status := .refused .imageDoesNotFit }, .refused (.hostOperation .imageDoesNotFit)⟩ ∧
      loadAndReset image s = loadROM image s)

/-- R372.
The spec marks R372 as derived from R360, R366, R367 and R369. -/
def Obligations.LoadAndResetBoots : Prop :=
  ∀ image : List Byte, image.length ≤ 32768 →
    ∃ m, loadAndReset image newCPU =
        ⟨{ pc := 0x8000, sp := 0, a := 0, x := 0, y := 0, p := 0, mem := m, status := .ready }, .ok⟩ ∧
      ∀ addr : Addr, Memory.read m addr.toNat =
        if addr = 0xFFFC then 0x00
        else if addr = 0xFFFD then 0x80
        else if h : 0x8000 ≤ addr.toNat ∧ addr.toNat - 0x8000 < image.length then image[addr.toNat - 0x8000]
        else 0x00

/-- R336: "It ends well when a Step executes BRK"; R335: the only stop without an error.
That a Run sets a Halted CPU Ready is the spec's own decision D13. -/
def Obligations.RunEndsWellOnlyAtBrk : Prop :=
  ∀ (n : Nat) (s t : State), run n s = ⟨t, .ok⟩ →
    ∃ k u, k < n ∧ Steps k { s with status := .ready } u ∧ u.status = .ready ∧ u.readByte u.pc = 0x00 ∧
      t = { u with pc := u.pc + 1, status := .halted }

/-- R331, R336: the only error a run returns.
The fields the fault records are the spec's own decision D24; that a Run sets a Halted CPU Ready is its decision D13. -/
def Obligations.RunEndsInErrorOnlyAtUnimplementedOpcode : Prop :=
  ∀ (n : Nat) (s t : State) (e : Fault), run n s = ⟨t, .err e⟩ →
    ∃ k u, k < n ∧ Steps k { s with status := .ready } u ∧ u.status = .ready ∧ u.readByte u.pc ∈ unimplementedOpcodes ∧
      e = .unimplementedOpcode (u.readByte u.pc) u.pc ∧
      t = { u with pc := u.pc + 1, status := .faulted (u.readByte u.pc) u.pc }

/-- R149, D14: the budget is the embedder's and no state of the block.
That `run` takes the budget as an argument is the model's choice (log entry 6). -/
def Obligations.LargerBudgetChangesNoFinishedRun : Prop :=
  ∀ (n k : Nat) (s : State), (run n s).answer ≠ .budgetSpent → run (n + k) s = run n s

/-- R340 (its ImageDoesNotFit row is `LoadRomSizeChecks`), R33, R148, D11 to D13.
The refusals and the Run after a halt are the spec's own decisions D11 to D13. That an operation on a Refused CPU is refused
with the recorded reason and changes nothing is the model's own reading (log entry 7): R340 says only that no later operation
clears the status. -/
def Obligations.RefusalsAndRunAgain : Prop :=
  ∀ (s : State) (n : Nat) (image : List Byte),
    let refusedWith := fun r => (⟨{ s with status := .refused r }, .refused (.hostOperation r)⟩ : Reply)
    (∀ op addr, s.status = .faulted op addr → run n s = refusedWith .runAfterFault) ∧
    (s.status = .loadFailed →
      run n s = refusedWith .runAfterLoadFailure ∧ resetCPU s = refusedWith .resetAfterLoadFailure ∧
      loadROM image s = refusedWith .loadAfterLoadFailure ∧ loadAndReset image s = refusedWith .loadAfterLoadFailure) ∧
    (∀ r, s.status = .refused r →
      run n s = ⟨s, .refused (.hostOperation r)⟩ ∧ resetCPU s = ⟨s, .refused (.hostOperation r)⟩ ∧
      loadROM image s = ⟨s, .refused (.hostOperation r)⟩ ∧ loadAndReset image s = ⟨s, .refused (.hostOperation r)⟩) ∧
    (s.status = .halted → run n s = run n { s with status := .ready })

/-- R377.
The action is the spec's own decision D15. That it acts on every Ready CPU, one between two Steps included, and answers nothing
on any other is the model's choice (log entry 8). -/
def Obligations.PokeSetsOneThing : Prop :=
  ∀ (s : State) (v : Byte) (w : Addr),
    (s.status = .ready →
      poke (.pc w) s = some { s with pc := w } ∧ poke (.sp v) s = some { s with sp := v } ∧
      poke (.a v) s = some { s with a := v } ∧ poke (.x v) s = some { s with x := v } ∧
      poke (.y v) s = some { s with y := v } ∧ poke (.p v) s = some { s with p := v } ∧
      poke (.mem w v) s = some (s.writeByte w v)) ∧
    (s.status ≠ .ready → ∀ g, poke g s = none)
end

