-- ==== Sys2Proof/Laws/Decode.lean ====
section
/-! SUPPORT. Laws of the byte order, the opcode table and the decoder. -/

namespace Sys2Proof

/-! ## Byte order -/

theorem wordOf_eq_append (hi lo : Byte) : wordOf hi lo = hi ++ lo := by
  ext k hk
  rw [show (hi ++ lo : Addr)[k] = _ from BitVec.getElem_append (x := hi) (y := lo) hk]
  by_cases h : k < 8
  · simp [wordOf, h]
  · have : k - 8 < 8 := by omega
    simp [wordOf, h, BitVec.getLsbD_of_ge lo k (by omega), BitVec.getLsbD_eq_getElem this]

@[simp] theorem lowByte_wordOf (hi lo : Byte) : lowByte (wordOf hi lo) = lo := by
  ext k hk; simp [lowByte, wordOf]

@[simp] theorem highByte_wordOf (hi lo : Byte) : highByte (wordOf hi lo) = hi := by
  ext k hk
  have : 8 + k < 16 := by omega
  have : k < 16 := by omega
  simp [highByte, wordOf, *]

@[simp] theorem wordOf_high_low (w : Addr) : wordOf (highByte w) (lowByte w) = w := by
  ext k hk
  by_cases h : k < 8
  · simp [highByte, lowByte, wordOf, h, hk]
  · have : k - 8 < 16 := by omega
    have : k - 8 < 8 := by omega
    simp [highByte, lowByte, wordOf, show 8 + (k - 8) = k by omega, *]

/-- The number a word is: the low byte plus 256 times the high byte. -/
theorem wordOf_toNat (hi lo : Byte) : (wordOf hi lo).toNat = lo.toNat + 256 * hi.toNat := by
  have h1 := hi.isLt
  have h2 := lo.isLt
  rw [wordOf_eq_append, BitVec.toNat_append, Nat.shiftLeft_eq, Nat.mul_comm, ← Nat.two_pow_add_eq_or_of_lt h2]
  omega

/-! ## The opcode table -/

theorem opcodeTable_length : opcodeTable.length = 114 := by decide

theorem lookup_mem {op : Byte} {r : Row} (h : lookup op = some r) : r ∈ opcodeTable := List.mem_of_find?_eq_some h

theorem lookup_opcode {op : Byte} {r : Row} (h : lookup op = some r) : r.opcode = op := by
  have := List.find?_some h
  simpa using this

/-- A row of the table and the encoder agree: what the row's layout builds is encoded as the row's opcode byte, then the
operand bytes, low byte first. -/
def Row.Encodes (r : Row) : Prop :=
  match r.layout with
  | .f1 i => encode i = [r.opcode]
  | .f2 build => ∀ d, encode (build d) = [r.opcode, d]
  | .f3 build => ∀ w, encode (build w) = [r.opcode, lowByte w, highByte w]

theorem opcodeTable_encodes : ∀ r ∈ opcodeTable, r.Encodes := by
  simp only [opcodeTable, List.forall_mem_append, opcodes0x, opcodes1x, opcodes2x, opcodes3x, opcodes4x, opcodes5x,
    opcodes6x, opcodes7x, opcodes8x, opcodes9x, opcodesAx, opcodesBx, opcodesCx, opcodesDx, opcodesEx, opcodesFx,
    List.forall_mem_cons]
  repeat' apply And.intro
  all_goals first
    | rfl
    | (intro _ h; cases h)
    | (intro _; rfl)

/-! ## The decoder -/

@[simp] theorem decode_nil : decode [] = .truncated := rfl

/-- The decoder on a list with an opcode byte. -/
theorem decode_cons (op : Byte) (rest : List Byte) :
    decode (op :: rest) =
      match lookup op with
      | none => .unimplemented op
      | some r => r.layout.decode rest := rfl

/-- Every layout reads its operand from two bytes. -/
theorem Layout.decode_two (l : Layout) (b1 b2 : Byte) : ∃ i rest, l.decode [b1, b2] = .ok i rest := by
  cases l <;> exact ⟨_, _, rfl⟩

/-- Three bytes decode to an instruction exactly when the opcode byte has an entry. -/
theorem decode3_eq_none_iff (op b1 b2 : Byte) : decode3 op b1 b2 = none ↔ lookup op = none := by
  unfold decode3
  rw [decode_cons]
  cases h : lookup op with
  | none => simp
  | some r => obtain ⟨i, rest, e⟩ := r.layout.decode_two b1 b2; simp [e]

theorem decode3_of_decode {op b1 b2 : Byte} {i : Instr} {rest : List Byte} (h : decode [op, b1, b2] = .ok i rest) :
    decode3 op b1 b2 = some i := by
  simp [decode3, h]

end Sys2Proof
end

