-- ==== Sys2Proof/Laws/State.lean ====
section
/-! SUPPORT. One lemma per field of the state and per update, each true by `rfl`, so that no later proof unfolds a record
update. -/

namespace Sys2Proof.Machine

/-! ### After `setPc` -/

@[simp] theorem State.setPc_pc (s : State) (v : Addr) : (s.setPc v).pc = v := rfl
@[simp] theorem State.setPc_sp (s : State) (v : Addr) : (s.setPc v).sp = s.sp := rfl
@[simp] theorem State.setPc_a (s : State) (v : Addr) : (s.setPc v).a = s.a := rfl
@[simp] theorem State.setPc_x (s : State) (v : Addr) : (s.setPc v).x = s.x := rfl
@[simp] theorem State.setPc_y (s : State) (v : Addr) : (s.setPc v).y = s.y := rfl
@[simp] theorem State.setPc_p (s : State) (v : Addr) : (s.setPc v).p = s.p := rfl
@[simp] theorem State.setPc_mem (s : State) (v : Addr) : (s.setPc v).mem = s.mem := rfl
@[simp] theorem State.setPc_status (s : State) (v : Addr) : (s.setPc v).status = s.status := rfl
@[simp] theorem State.setPc_readByte (s : State) (v : Addr) (addr : Addr) : (s.setPc v).readByte addr = s.readByte addr := rfl
@[simp] theorem State.setPc_readWord (s : State) (v : Addr) (addr : Addr) : (s.setPc v).readWord addr = s.readWord addr := rfl

/-! ### After `setSp` -/

@[simp] theorem State.setSp_pc (s : State) (v : Byte) : (s.setSp v).pc = s.pc := rfl
@[simp] theorem State.setSp_sp (s : State) (v : Byte) : (s.setSp v).sp = v := rfl
@[simp] theorem State.setSp_a (s : State) (v : Byte) : (s.setSp v).a = s.a := rfl
@[simp] theorem State.setSp_x (s : State) (v : Byte) : (s.setSp v).x = s.x := rfl
@[simp] theorem State.setSp_y (s : State) (v : Byte) : (s.setSp v).y = s.y := rfl
@[simp] theorem State.setSp_p (s : State) (v : Byte) : (s.setSp v).p = s.p := rfl
@[simp] theorem State.setSp_mem (s : State) (v : Byte) : (s.setSp v).mem = s.mem := rfl
@[simp] theorem State.setSp_status (s : State) (v : Byte) : (s.setSp v).status = s.status := rfl
@[simp] theorem State.setSp_readByte (s : State) (v : Byte) (addr : Addr) : (s.setSp v).readByte addr = s.readByte addr := rfl
@[simp] theorem State.setSp_readWord (s : State) (v : Byte) (addr : Addr) : (s.setSp v).readWord addr = s.readWord addr := rfl

/-! ### After `setA` -/

@[simp] theorem State.setA_pc (s : State) (v : Byte) : (s.setA v).pc = s.pc := rfl
@[simp] theorem State.setA_sp (s : State) (v : Byte) : (s.setA v).sp = s.sp := rfl
@[simp] theorem State.setA_a (s : State) (v : Byte) : (s.setA v).a = v := rfl
@[simp] theorem State.setA_x (s : State) (v : Byte) : (s.setA v).x = s.x := rfl
@[simp] theorem State.setA_y (s : State) (v : Byte) : (s.setA v).y = s.y := rfl
@[simp] theorem State.setA_p (s : State) (v : Byte) : (s.setA v).p = s.p := rfl
@[simp] theorem State.setA_mem (s : State) (v : Byte) : (s.setA v).mem = s.mem := rfl
@[simp] theorem State.setA_status (s : State) (v : Byte) : (s.setA v).status = s.status := rfl
@[simp] theorem State.setA_readByte (s : State) (v : Byte) (addr : Addr) : (s.setA v).readByte addr = s.readByte addr := rfl
@[simp] theorem State.setA_readWord (s : State) (v : Byte) (addr : Addr) : (s.setA v).readWord addr = s.readWord addr := rfl

/-! ### After `setX` -/

@[simp] theorem State.setX_pc (s : State) (v : Byte) : (s.setX v).pc = s.pc := rfl
@[simp] theorem State.setX_sp (s : State) (v : Byte) : (s.setX v).sp = s.sp := rfl
@[simp] theorem State.setX_a (s : State) (v : Byte) : (s.setX v).a = s.a := rfl
@[simp] theorem State.setX_x (s : State) (v : Byte) : (s.setX v).x = v := rfl
@[simp] theorem State.setX_y (s : State) (v : Byte) : (s.setX v).y = s.y := rfl
@[simp] theorem State.setX_p (s : State) (v : Byte) : (s.setX v).p = s.p := rfl
@[simp] theorem State.setX_mem (s : State) (v : Byte) : (s.setX v).mem = s.mem := rfl
@[simp] theorem State.setX_status (s : State) (v : Byte) : (s.setX v).status = s.status := rfl
@[simp] theorem State.setX_readByte (s : State) (v : Byte) (addr : Addr) : (s.setX v).readByte addr = s.readByte addr := rfl
@[simp] theorem State.setX_readWord (s : State) (v : Byte) (addr : Addr) : (s.setX v).readWord addr = s.readWord addr := rfl

/-! ### After `setY` -/

@[simp] theorem State.setY_pc (s : State) (v : Byte) : (s.setY v).pc = s.pc := rfl
@[simp] theorem State.setY_sp (s : State) (v : Byte) : (s.setY v).sp = s.sp := rfl
@[simp] theorem State.setY_a (s : State) (v : Byte) : (s.setY v).a = s.a := rfl
@[simp] theorem State.setY_x (s : State) (v : Byte) : (s.setY v).x = s.x := rfl
@[simp] theorem State.setY_y (s : State) (v : Byte) : (s.setY v).y = v := rfl
@[simp] theorem State.setY_p (s : State) (v : Byte) : (s.setY v).p = s.p := rfl
@[simp] theorem State.setY_mem (s : State) (v : Byte) : (s.setY v).mem = s.mem := rfl
@[simp] theorem State.setY_status (s : State) (v : Byte) : (s.setY v).status = s.status := rfl
@[simp] theorem State.setY_readByte (s : State) (v : Byte) (addr : Addr) : (s.setY v).readByte addr = s.readByte addr := rfl
@[simp] theorem State.setY_readWord (s : State) (v : Byte) (addr : Addr) : (s.setY v).readWord addr = s.readWord addr := rfl

/-! ### After `setP` -/

@[simp] theorem State.setP_pc (s : State) (v : Byte) : (s.setP v).pc = s.pc := rfl
@[simp] theorem State.setP_sp (s : State) (v : Byte) : (s.setP v).sp = s.sp := rfl
@[simp] theorem State.setP_a (s : State) (v : Byte) : (s.setP v).a = s.a := rfl
@[simp] theorem State.setP_x (s : State) (v : Byte) : (s.setP v).x = s.x := rfl
@[simp] theorem State.setP_y (s : State) (v : Byte) : (s.setP v).y = s.y := rfl
@[simp] theorem State.setP_p (s : State) (v : Byte) : (s.setP v).p = v := rfl
@[simp] theorem State.setP_mem (s : State) (v : Byte) : (s.setP v).mem = s.mem := rfl
@[simp] theorem State.setP_status (s : State) (v : Byte) : (s.setP v).status = s.status := rfl
@[simp] theorem State.setP_readByte (s : State) (v : Byte) (addr : Addr) : (s.setP v).readByte addr = s.readByte addr := rfl
@[simp] theorem State.setP_readWord (s : State) (v : Byte) (addr : Addr) : (s.setP v).readWord addr = s.readWord addr := rfl

/-! ### After `setMem` -/

@[simp] theorem State.setMem_pc (s : State) (v : Memory) : (s.setMem v).pc = s.pc := rfl
@[simp] theorem State.setMem_sp (s : State) (v : Memory) : (s.setMem v).sp = s.sp := rfl
@[simp] theorem State.setMem_a (s : State) (v : Memory) : (s.setMem v).a = s.a := rfl
@[simp] theorem State.setMem_x (s : State) (v : Memory) : (s.setMem v).x = s.x := rfl
@[simp] theorem State.setMem_y (s : State) (v : Memory) : (s.setMem v).y = s.y := rfl
@[simp] theorem State.setMem_p (s : State) (v : Memory) : (s.setMem v).p = s.p := rfl
@[simp] theorem State.setMem_mem (s : State) (v : Memory) : (s.setMem v).mem = v := rfl
@[simp] theorem State.setMem_status (s : State) (v : Memory) : (s.setMem v).status = s.status := rfl

/-! ### After `setStatus` -/

@[simp] theorem State.setStatus_pc (s : State) (v : RunStatus) : (s.setStatus v).pc = s.pc := rfl
@[simp] theorem State.setStatus_sp (s : State) (v : RunStatus) : (s.setStatus v).sp = s.sp := rfl
@[simp] theorem State.setStatus_a (s : State) (v : RunStatus) : (s.setStatus v).a = s.a := rfl
@[simp] theorem State.setStatus_x (s : State) (v : RunStatus) : (s.setStatus v).x = s.x := rfl
@[simp] theorem State.setStatus_y (s : State) (v : RunStatus) : (s.setStatus v).y = s.y := rfl
@[simp] theorem State.setStatus_p (s : State) (v : RunStatus) : (s.setStatus v).p = s.p := rfl
@[simp] theorem State.setStatus_mem (s : State) (v : RunStatus) : (s.setStatus v).mem = s.mem := rfl
@[simp] theorem State.setStatus_status (s : State) (v : RunStatus) : (s.setStatus v).status = v := rfl
@[simp] theorem State.setStatus_readByte (s : State) (v : RunStatus) (addr : Addr) : (s.setStatus v).readByte addr = s.readByte addr := rfl
@[simp] theorem State.setStatus_readWord (s : State) (v : RunStatus) (addr : Addr) : (s.setStatus v).readWord addr = s.readWord addr := rfl

/-! ### After `setFlag` -/

@[simp] theorem State.setFlag_pc (s : State) (f : Flag) (b : Bool) : (s.setFlag f b).pc = s.pc := rfl
@[simp] theorem State.setFlag_sp (s : State) (f : Flag) (b : Bool) : (s.setFlag f b).sp = s.sp := rfl
@[simp] theorem State.setFlag_a (s : State) (f : Flag) (b : Bool) : (s.setFlag f b).a = s.a := rfl
@[simp] theorem State.setFlag_x (s : State) (f : Flag) (b : Bool) : (s.setFlag f b).x = s.x := rfl
@[simp] theorem State.setFlag_y (s : State) (f : Flag) (b : Bool) : (s.setFlag f b).y = s.y := rfl
@[simp] theorem State.setFlag_p (s : State) (f : Flag) (b : Bool) : (s.setFlag f b).p = putFlag f b s.p := rfl
@[simp] theorem State.setFlag_mem (s : State) (f : Flag) (b : Bool) : (s.setFlag f b).mem = s.mem := rfl
@[simp] theorem State.setFlag_status (s : State) (f : Flag) (b : Bool) : (s.setFlag f b).status = s.status := rfl
@[simp] theorem State.setFlag_readByte (s : State) (f : Flag) (b : Bool) (addr : Addr) : (s.setFlag f b).readByte addr = s.readByte addr := rfl

/-! ### After `setNZ` -/

@[simp] theorem State.setNZ_pc (s : State) (v : Byte) : (s.setNZ v).pc = s.pc := rfl
@[simp] theorem State.setNZ_sp (s : State) (v : Byte) : (s.setNZ v).sp = s.sp := rfl
@[simp] theorem State.setNZ_a (s : State) (v : Byte) : (s.setNZ v).a = s.a := rfl
@[simp] theorem State.setNZ_x (s : State) (v : Byte) : (s.setNZ v).x = s.x := rfl
@[simp] theorem State.setNZ_y (s : State) (v : Byte) : (s.setNZ v).y = s.y := rfl
@[simp] theorem State.setNZ_p (s : State) (v : Byte) : (s.setNZ v).p = nz v s.p := rfl
@[simp] theorem State.setNZ_mem (s : State) (v : Byte) : (s.setNZ v).mem = s.mem := rfl
@[simp] theorem State.setNZ_status (s : State) (v : Byte) : (s.setNZ v).status = s.status := rfl
@[simp] theorem State.setNZ_readByte (s : State) (v : Byte) (addr : Addr) : (s.setNZ v).readByte addr = s.readByte addr := rfl

/-! ### After `advance` -/

@[simp] theorem State.advance_pc (s : State) (n : Nat) : (s.advance n).pc = s.pc + BitVec.ofNat 16 n := rfl
@[simp] theorem State.advance_sp (s : State) (n : Nat) : (s.advance n).sp = s.sp := rfl
@[simp] theorem State.advance_a (s : State) (n : Nat) : (s.advance n).a = s.a := rfl
@[simp] theorem State.advance_x (s : State) (n : Nat) : (s.advance n).x = s.x := rfl
@[simp] theorem State.advance_y (s : State) (n : Nat) : (s.advance n).y = s.y := rfl
@[simp] theorem State.advance_p (s : State) (n : Nat) : (s.advance n).p = s.p := rfl
@[simp] theorem State.advance_mem (s : State) (n : Nat) : (s.advance n).mem = s.mem := rfl
@[simp] theorem State.advance_status (s : State) (n : Nat) : (s.advance n).status = s.status := rfl
@[simp] theorem State.advance_readByte (s : State) (n : Nat) (addr : Addr) : (s.advance n).readByte addr = s.readByte addr := rfl

/-! ### After `raiseUnimplemented` -/

@[simp] theorem State.raiseUnimplemented_pc (s : State) (op : Byte) : (s.raiseUnimplemented op).pc = s.pc + 1 := rfl
@[simp] theorem State.raiseUnimplemented_sp (s : State) (op : Byte) : (s.raiseUnimplemented op).sp = s.sp := rfl
@[simp] theorem State.raiseUnimplemented_a (s : State) (op : Byte) : (s.raiseUnimplemented op).a = s.a := rfl
@[simp] theorem State.raiseUnimplemented_x (s : State) (op : Byte) : (s.raiseUnimplemented op).x = s.x := rfl
@[simp] theorem State.raiseUnimplemented_y (s : State) (op : Byte) : (s.raiseUnimplemented op).y = s.y := rfl
@[simp] theorem State.raiseUnimplemented_p (s : State) (op : Byte) : (s.raiseUnimplemented op).p = s.p := rfl
@[simp] theorem State.raiseUnimplemented_mem (s : State) (op : Byte) : (s.raiseUnimplemented op).mem = s.mem := rfl
@[simp] theorem State.raiseUnimplemented_status (s : State) (op : Byte) : (s.raiseUnimplemented op).status = .faulted op s.pc := rfl
@[simp] theorem State.raiseUnimplemented_readByte (s : State) (op : Byte) (addr : Addr) : (s.raiseUnimplemented op).readByte addr = s.readByte addr := rfl

/-! ### After `writeByte` -/

@[simp] theorem State.writeByte_pc (s : State) (b : Addr) (v : Byte) : (s.writeByte b v).pc = s.pc := rfl
@[simp] theorem State.writeByte_sp (s : State) (b : Addr) (v : Byte) : (s.writeByte b v).sp = s.sp := rfl
@[simp] theorem State.writeByte_a (s : State) (b : Addr) (v : Byte) : (s.writeByte b v).a = s.a := rfl
@[simp] theorem State.writeByte_x (s : State) (b : Addr) (v : Byte) : (s.writeByte b v).x = s.x := rfl
@[simp] theorem State.writeByte_y (s : State) (b : Addr) (v : Byte) : (s.writeByte b v).y = s.y := rfl
@[simp] theorem State.writeByte_p (s : State) (b : Addr) (v : Byte) : (s.writeByte b v).p = s.p := rfl
@[simp] theorem State.writeByte_mem (s : State) (b : Addr) (v : Byte) : (s.writeByte b v).mem = Memory.write s.mem b.toNat v := rfl
@[simp] theorem State.writeByte_status (s : State) (b : Addr) (v : Byte) : (s.writeByte b v).status = s.status := rfl

/-! ### After `push` -/

@[simp] theorem State.push_pc (s : State) (v : Byte) : (s.push v).pc = s.pc := rfl
@[simp] theorem State.push_sp (s : State) (v : Byte) : (s.push v).sp = s.sp - 1 := rfl
@[simp] theorem State.push_a (s : State) (v : Byte) : (s.push v).a = s.a := rfl
@[simp] theorem State.push_x (s : State) (v : Byte) : (s.push v).x = s.x := rfl
@[simp] theorem State.push_y (s : State) (v : Byte) : (s.push v).y = s.y := rfl
@[simp] theorem State.push_p (s : State) (v : Byte) : (s.push v).p = s.p := rfl
@[simp] theorem State.push_mem (s : State) (v : Byte) : (s.push v).mem = Memory.write s.mem (stackAddr s.sp).toNat v := rfl
@[simp] theorem State.push_status (s : State) (v : Byte) : (s.push v).status = s.status := rfl

/-! ### After `pop` -/

@[simp] theorem State.pop_state_pc (s : State) : (s.pop.2).pc = s.pc := rfl
@[simp] theorem State.pop_state_sp (s : State) : (s.pop.2).sp = s.sp + 1 := rfl
@[simp] theorem State.pop_state_a (s : State) : (s.pop.2).a = s.a := rfl
@[simp] theorem State.pop_state_x (s : State) : (s.pop.2).x = s.x := rfl
@[simp] theorem State.pop_state_y (s : State) : (s.pop.2).y = s.y := rfl
@[simp] theorem State.pop_state_p (s : State) : (s.pop.2).p = s.p := rfl
@[simp] theorem State.pop_state_mem (s : State) : (s.pop.2).mem = s.mem := rfl
@[simp] theorem State.pop_state_status (s : State) : (s.pop.2).status = s.status := rfl
@[simp] theorem State.pop_state_readByte (s : State) (addr : Addr) : (s.pop.2).readByte addr = s.readByte addr := rfl

@[simp] theorem State.pop_byte (s : State) : s.pop.1 = s.readByte (stackAddr (s.sp + 1)) := rfl

end Sys2Proof.Machine
end

