-- ==== Sys2Proof/Laws/Memory.lean ====
section
/-! SUPPORT. The memory laws: the canonical form is kept by every operation, a read after a write, and reads decide a
canonical memory. -/

namespace Sys2Proof.Machine

/-! ## The canonical form -/

@[simp] theorem Memory.wfFrom_nil (lo : Nat) : Memory.wfFrom lo [] = true := rfl

@[simp] theorem Memory.wfFrom_cons (lo b : Nat) (w : Byte) (m : Memory) :
    Memory.wfFrom lo ((b, w) :: m) = true ↔
      lo ≤ b ∧ b < Config.memorySize ∧ w ≠ Memory.unlisted ∧ Memory.wfFrom (b + 1) m = true := by
  simp [Memory.wfFrom, and_assoc]

/-- A canonical memory from `lo` up is canonical from any lower address up. -/
theorem Memory.wfFrom_mono {lo lo' : Nat} {m : Memory} (h : Memory.wfFrom lo m = true) (le : lo' ≤ lo) :
    Memory.wfFrom lo' m = true := by
  cases m with
  | nil => rfl
  | cons c m => obtain ⟨b, w⟩ := c; simp only [Memory.wfFrom_cons] at h ⊢; exact ⟨le.trans h.1, h.2⟩

/-- Below its first address a canonical memory reads as unlisted. -/
theorem Memory.read_below {lo n : Nat} {m : Memory} (h : Memory.wfFrom lo m = true) (lt : n < lo) :
    Memory.read m n = Memory.unlisted := by
  induction m generalizing lo with
  | nil => rfl
  | cons c m ih =>
    obtain ⟨b, w⟩ := c
    simp only [Memory.wfFrom_cons] at h
    have ne : n ≠ b := by omega
    simp only [Memory.read, if_neg ne]
    exact ih h.2.2.2 (by omega)

/-- Putting an entry in front keeps the canonical form. -/
theorem Memory.cons_wf {lo n : Nat} {v : Byte} {m : Memory} (h : Memory.wfFrom (n + 1) m = true) (le : lo ≤ n)
    (lt : n < Config.memorySize) : Memory.wfFrom lo (Memory.cons n v m) = true := by
  unfold Memory.cons
  split
  · exact Memory.wfFrom_mono h (by omega)
  · exact (Memory.wfFrom_cons ..).2 ⟨le, lt, ‹_›, h⟩

/-- A write keeps the canonical form. -/
theorem Memory.write_wfFrom {lo n : Nat} {v : Byte} {m : Memory} (h : Memory.wfFrom lo m = true) (le : lo ≤ n)
    (lt : n < Config.memorySize) : Memory.wfFrom lo (Memory.write m n v) = true := by
  induction m generalizing lo with
  | nil => exact Memory.cons_wf rfl le lt
  | cons c m ih =>
    obtain ⟨b, w⟩ := c
    have h' := (Memory.wfFrom_cons ..).1 h
    unfold Memory.write
    split
    · exact Memory.cons_wf ((Memory.wfFrom_cons ..).2 ⟨by omega, h'.2⟩) le lt
    · split
      · subst n; exact Memory.cons_wf h'.2.2.2 le lt
      · exact (Memory.wfFrom_cons ..).2 ⟨h'.1, h'.2.1, h'.2.2.1, ih h'.2.2.2 (by omega)⟩

theorem Memory.write_wf {m : Memory} (h : Memory.wf m = true) (addr : Addr) (v : Byte) :
    Memory.wf (Memory.write m addr.toNat v) = true :=
  Memory.write_wfFrom h (Nat.zero_le _) addr.isLt

theorem Memory.reset_wf : Memory.wf State.reset.mem = true := rfl

/-! ## A read after a write -/

theorem Memory.read_cons {lo n : Nat} {v : Byte} {m : Memory} (h : Memory.wfFrom (n + 1) m = true) :
    Memory.read (Memory.cons n v m) lo = if lo = n then v else Memory.read m lo := by
  unfold Memory.cons
  split
  · split
    · subst lo; subst v; exact Memory.read_below h (by omega)
    · rfl
  · rfl

/-- A read after a write to a canonical memory. -/
theorem Memory.read_write_from {lo n k : Nat} {v : Byte} {m : Memory} (h : Memory.wfFrom lo m = true) :
    Memory.read (Memory.write m n v) k = if k = n then v else Memory.read m k := by
  induction m generalizing lo with
  | nil => exact Memory.read_cons rfl
  | cons c m ih =>
    obtain ⟨b, w⟩ := c
    have h' := (Memory.wfFrom_cons ..).1 h
    unfold Memory.write
    split
    · exact Memory.read_cons ((Memory.wfFrom_cons ..).2 ⟨by omega, h'.2⟩)
    · split
      · subst n
        rw [Memory.read_cons h'.2.2.2]
        by_cases e : k = b <;> simp [Memory.read, e]
      · simp only [Memory.read, ih h'.2.2.2]
        by_cases e : k = b <;> by_cases e' : k = n <;> simp_all

theorem Memory.read_write {m : Memory} (h : Memory.wf m = true) (n k : Nat) (v : Byte) :
    Memory.read (Memory.write m n v) k = if k = n then v else Memory.read m k :=
  Memory.read_write_from h

/-- Writes onto zeroed memory leave a canonical memory. -/
theorem Memory.foldl_write_wf (cells : List (Addr × Byte)) {m : Memory} (h : Memory.wf m = true) :
    Memory.wf (cells.foldl (fun m c => Memory.write m c.1.toNat c.2) m) = true := by
  induction cells generalizing m with
  | nil => exact h
  | cons c cells ih => exact ih (Memory.write_wf h c.1 c.2)

/-! ## The same on the state -/

theorem State.writeByte_wf {s : State} (h : Memory.wf s.mem = true) (b : Addr) (v : Byte) :
    Memory.wf (s.writeByte b v).mem = true :=
  Memory.write_wf h b v

/-- A byte read after a byte write (R50). -/
theorem State.readByte_writeByte {s : State} (h : Memory.wf s.mem = true) (b c : Addr) (v : Byte) :
    (s.writeByte b v).readByte c = if c = b then v else s.readByte c := by
  simp only [State.readByte, State.writeByte_mem, Memory.read_write h, BitVec.toNat_inj]

theorem State.readByte_writeByte_same {s : State} (h : Memory.wf s.mem = true) (b : Addr) (v : Byte) :
    (s.writeByte b v).readByte b = v := by
  simp [State.readByte_writeByte h]

theorem State.readByte_writeByte_ne {s : State} (h : Memory.wf s.mem = true) {b c : Addr} (ne : c ≠ b) (v : Byte) :
    (s.writeByte b v).readByte c = s.readByte c := by
  simp [State.readByte_writeByte h, ne]

theorem State.writeWord_wf {s : State} (h : Memory.wf s.mem = true) (b w : Addr) :
    Memory.wf (s.writeWord b w).mem = true :=
  State.writeByte_wf (State.writeByte_wf h ..) ..

theorem State.push_wf {s : State} (h : Memory.wf s.mem = true) (v : Byte) : Memory.wf (s.push v).mem = true :=
  Memory.write_wf h _ v

/-- A byte read after a push (R54). -/
theorem State.readByte_push {s : State} (h : Memory.wf s.mem = true) (v : Byte) (c : Addr) :
    (s.push v).readByte c = if c = stackAddr s.sp then v else s.readByte c :=
  State.readByte_writeByte h _ _ v

end Sys2Proof.Machine
end

