-- ==== Sys2Proof/Laws/Exec.lean ====
section
/-! SUPPORT. What executing an instruction can do, said once: `exec` runs the handler of the instruction's mnemonic on its
operand, so a claim about all 114 instructions is a claim about 40 handlers. And what a step can do. -/

namespace Sys2Proof.Machine

/-! ## Running a handler -/

/-- A handler never stops the machine. -/
theorem runHandler_eq (mode : Mode) (h : Handler) (s : State) :
    runHandler mode h s = .next (finish mode.size (h (s.advance 1))) := rfl

@[simp] theorem runHandler_next (mode : Mode) (h : Handler) (s t : State) :
    runHandler mode h s = .next t ↔ finish mode.size (h (s.advance 1)) = t := by
  simp [runHandler]

@[simp] theorem finish_a (n : Nat) (td : State × Disposition) : (finish n td).a = td.1.a := by
  obtain ⟨t, d⟩ := td; cases d <;> rfl
@[simp] theorem finish_x (n : Nat) (td : State × Disposition) : (finish n td).x = td.1.x := by
  obtain ⟨t, d⟩ := td; cases d <;> rfl
@[simp] theorem finish_y (n : Nat) (td : State × Disposition) : (finish n td).y = td.1.y := by
  obtain ⟨t, d⟩ := td; cases d <;> rfl
@[simp] theorem finish_sp (n : Nat) (td : State × Disposition) : (finish n td).sp = td.1.sp := by
  obtain ⟨t, d⟩ := td; cases d <;> rfl
@[simp] theorem finish_p (n : Nat) (td : State × Disposition) : (finish n td).p = td.1.p := by
  obtain ⟨t, d⟩ := td; cases d <;> rfl
@[simp] theorem finish_mem (n : Nat) (td : State × Disposition) : (finish n td).mem = td.1.mem := by
  obtain ⟨t, d⟩ := td; cases d <;> rfl

/-- The run status after a handler: only the disposition Halt changes it. -/
theorem finish_status (n : Nat) (td : State × Disposition) :
    (finish n td).status = if td.2 = .halt then .halted else td.1.status := by
  obtain ⟨t, d⟩ := td; cases d <;> rfl

/-- `PC` after a handler: moved past the operand bytes unless the handler set it. -/
theorem finish_pc (n : Nat) (td : State × Disposition) :
    (finish n td).pc = if td.2 = .pcUpdated then td.1.pc else td.1.pc + BitVec.ofNat 16 (n - 1) := by
  obtain ⟨t, d⟩ := td; cases d <;> rfl

/-! ## `exec` by mnemonic and operand -/

/-- An operand as the source of a data byte (only immediate and memory operands are one). -/
def Source.ofOperand : Operand → Source
  | .imm d => .imm d
  | .mem m => .mem m
  | .none => .imm 0
  | .acc => .imm 0
  | .rel _ => .imm 0

/-- An operand as the target of a shift (only accumulator and memory operands are one). -/
def Target.ofOperand : Operand → Target
  | .acc => .acc
  | .mem m => .mem m
  | .none => .acc
  | .imm _ => .acc
  | .rel _ => .acc

/-- An operand as a memory operand. -/
def Place.ofOperand : Operand → Place
  | .mem m => m
  | .none => .abs 0
  | .acc => .abs 0
  | .imm _ => .abs 0
  | .rel _ => .abs 0

/-- An operand as a branch displacement. -/
def relOfOperand : Operand → Byte
  | .rel d => d
  | .none => 0
  | .acc => 0
  | .imm _ => 0
  | .mem _ => 0

/-- An operand as an absolute word. -/
def wordOfOperand : Operand → Addr
  | .mem (.abs w) => w
  | _ => 0

/-- The handler table (R141): the handler of a mnemonic, on an operand. -/
def handlerOf : Mnemonic → Operand → Handler
  | .LDA, o => lda (Source.ofOperand o)
  | .LDX, o => ldx (Source.ofOperand o)
  | .LDY, o => ldy (Source.ofOperand o)
  | .TAX, _ => tax
  | .ADC, o => adc (Source.ofOperand o)
  | .CMP, o => compareA (Source.ofOperand o)
  | .CPX, o => compareX (Source.ofOperand o)
  | .CPY, o => compareY (Source.ofOperand o)
  | .AND, o => andA (Source.ofOperand o)
  | .EOR, o => eorA (Source.ofOperand o)
  | .ORA, o => oraA (Source.ofOperand o)
  | .BIT, o => bitTest (Source.ofOperand o)
  | .ASL, o => asl (Target.ofOperand o)
  | .LSR, o => lsr (Target.ofOperand o)
  | .ROL, o => rol (Target.ofOperand o)
  | .INX, _ => inx
  | .INY, _ => iny
  | .DEX, _ => dex
  | .DEY, _ => dey
  | .INC, o => incMem (Place.ofOperand o)
  | .DEC, o => decMem (Place.ofOperand o)
  | .BCC, o => branchCC (relOfOperand o)
  | .BCS, o => branchCS (relOfOperand o)
  | .BEQ, o => branchEQ (relOfOperand o)
  | .BNE, o => branchNE (relOfOperand o)
  | .BMI, o => branchMI (relOfOperand o)
  | .BPL, o => branchPL (relOfOperand o)
  | .BVC, o => branchVC (relOfOperand o)
  | .BVS, o => branchVS (relOfOperand o)
  | .JMP, o => jmp (Place.ofOperand o)
  | .JSR, o => jsr (wordOfOperand o)
  | .CLC, _ => clc
  | .CLD, _ => cld
  | .CLI, _ => cli
  | .CLV, _ => clv
  | .PHA, _ => pha
  | .PHP, _ => php
  | .PLA, _ => pla
  | .PLP, _ => plp
  | .BRK, _ => brk

/-- `exec` runs the handler of the instruction's mnemonic on its operand. -/
theorem exec_eq (i : Instr) (s : State) : exec i s = runHandler i.mode (handlerOf i.mnemonic i.operand) s := by
  cases i <;> rfl

/-- The next state of an instruction: its handler's state, finished. -/
theorem exec_next {i : Instr} {s t : State} (h : exec i s = .next t) :
    t = finish i.mode.size (handlerOf i.mnemonic i.operand (s.advance 1)) := by
  rw [exec_eq] at h
  exact ((runHandler_next ..).1 h).symm

/-! ## What every handler does -/

/-- Only BRK's handler tells the loop to stop. -/
theorem handler_halt (m : Mnemonic) (o : Operand) (s : State) : (handlerOf m o s).2 = .halt ↔ m = .BRK := by
  cases m <;> simp [handlerOf, lda, ldx, ldy, tax, adc, compareA, compareX, compareY, compareWith, andA, eorA, oraA,
    bitTest, asl, lsr, rol, shiftResult, inx, iny, dex, dey, incMem, decMem, branchCC, branchCS, branchEQ, branchNE, branchMI,
    branchPL, branchVC, branchVS, branch, jmp, jsr, clc, cld, cli, clv, pha, php, pla, plp, brk]
  all_goals (split <;> simp)

/-- No handler writes the run status. -/
theorem handler_status (m : Mnemonic) (o : Operand) (s : State) : (handlerOf m o s).1.status = s.status := by
  cases m <;> simp [handlerOf, lda, ldx, ldy, tax, adc, compareA, compareX, compareY, compareWith, andA, eorA, oraA,
    bitTest, asl, lsr, rol, shiftResult, inx, iny, dex, dey, incMem, decMem, branchCC, branchCS, branchEQ, branchNE, branchMI,
    branchPL, branchVC, branchVS, branch, jmp, jsr, clc, cld, cli, clv, pha, php, pla, plp, brk]
  all_goals first
    | (split <;> simp)
    | (cases Target.ofOperand o <;> simp [Target.store])

/-- A handler other than JMP's and JSR's that does not answer PcUpdated leaves `PC` alone. -/
theorem handler_pc (m : Mnemonic) (o : Operand) (s : State) (h1 : m ≠ .JMP) (h2 : m ≠ .JSR) :
    (handlerOf m o s).2 ≠ .pcUpdated → (handlerOf m o s).1.pc = s.pc := by
  cases m <;> simp [handlerOf, lda, ldx, ldy, tax, adc, compareA, compareX, compareY, compareWith, andA, eorA, oraA,
    bitTest, asl, lsr, rol, shiftResult, inx, iny, dex, dey, incMem, decMem, branchCC, branchCS, branchEQ, branchNE, branchMI,
    branchPL, branchVC, branchVS, branch, clc, cld, cli, clv, pha, php, pla, plp, brk] at *
  all_goals first
    | (split <;> simp)
    | (cases Target.ofOperand o <;> simp [Target.store])

/-- Every handler keeps the canonical form of memory. -/
theorem handler_wf (m : Mnemonic) (o : Operand) (s : State) (h : Memory.wf s.mem = true) :
    Memory.wf (handlerOf m o s).1.mem = true := by
  cases m <;> simp [handlerOf, lda, ldx, ldy, tax, adc, compareA, compareX, compareY, compareWith, andA, eorA, oraA,
    bitTest, asl, lsr, rol, shiftResult, inx, iny, dex, dey, incMem, decMem, branchCC, branchCS, branchEQ, branchNE, branchMI,
    branchPL, branchVC, branchVS, branch, jmp, jsr, clc, cld, cli, clv, pha, php, pla, plp, brk,
    h, Memory.write_wf]
  all_goals first
    | (split <;> simp [h])
    | (cases Target.ofOperand o <;> simp [Target.store, h, Memory.write_wf])

/-! ## A step -/

/-- A step of a Ready CPU whose bytes at `PC` decode. -/
theorem step_of_decode3 {s : State} {i : Instr} (hs : s.status = .ready)
    (hd : decode3 (s.readByte s.pc) (s.readByte (s.pc + 1)) (s.readByte (s.pc + 2)) = some i) : step s = exec i s := by
  simp only [step, hs, hd]

/-- A step of a Ready CPU whose opcode byte has no entry. -/
theorem step_of_no_entry {s : State} (hs : s.status = .ready) (hl : lookup (s.readByte s.pc) = none) :
    step s = .next (s.raiseUnimplemented (s.readByte s.pc)) := by
  simp only [step, hs, (decode3_eq_none_iff ..).2 hl]

/-- Everything a step that answers a next state can have done: it ran an instruction, or raised UnimplementedOpcode; and the
CPU was Ready. -/
theorem step_next {s t : State} (h : step s = .next t) :
    s.status = .ready ∧ ((∃ i, decode3 (s.readByte s.pc) (s.readByte (s.pc + 1)) (s.readByte (s.pc + 2)) = some i ∧
        exec i s = .next t) ∨
      (lookup (s.readByte s.pc) = none ∧ t = s.raiseUnimplemented (s.readByte s.pc))) := by
  unfold step at h
  cases hs : s.status with
  | ready =>
    simp only [hs] at h
    refine ⟨rfl, ?_⟩
    cases hd : decode3 (s.readByte s.pc) (s.readByte (s.pc + 1)) (s.readByte (s.pc + 2)) with
    | some i => simp only [hd] at h; exact .inl ⟨i, rfl, h⟩
    | none =>
      simp only [hd, Host.Outcome.next.injEq] at h
      exact .inr ⟨(decode3_eq_none_iff ..).1 hd, h.symm⟩
  | halted => simp [hs] at h
  | faulted => simp [hs] at h
  | loadFailed => simp [hs] at h
  | refused => simp [hs] at h

end Sys2Proof.Machine
end

