-- ==== Sys2Proof/Laws/Flags.lean ====
section
/-! SUPPORT. Laws of the flag engine: what each flag write does to each bit of `P`, and the byte computations as integer
arithmetic. -/

namespace Sys2Proof.Machine

/-! ## One flag -/

/-- The bit a flag stands at (10_state.md R23). -/
def Flag.bit : Flag → Nat
  | .N => 7
  | .V => 6
  | .B => 4
  | .D => 3
  | .I => 2
  | .Z => 1
  | .C => 0

theorem Flag.bit_lt (f : Flag) : f.bit < 8 := by cases f <;> decide

/-- The mask of a flag has exactly the flag's bit. -/
theorem Flag.mask_getLsbD (f : Flag) (k : Nat) (hk : k < 8) : f.mask.getLsbD k = decide (k = f.bit) := by
  have h : ∀ k : Fin 8, f.mask.getLsbD k = decide (k.val = f.bit) := by cases f <;> decide
  exact h ⟨k, hk⟩

/-- Testing a flag reads its bit. -/
theorem testFlag_eq_bit (f : Flag) (p : Byte) : testFlag f p = p.getLsbD f.bit := by
  have split : ∀ b : Bool, p.getLsbD f.bit = b → testFlag f p = b := by
    intro b hb
    cases b with
    | true =>
      simp only [testFlag, bne_iff_ne, ne_eq]
      intro h
      have := congrArg (fun v => v.getLsbD f.bit) h
      simp [hb, Flag.mask_getLsbD f _ f.bit_lt] at this
    | false =>
      simp only [testFlag, bne_eq_false_iff_eq]
      ext k hk
      have := Flag.mask_getLsbD f k hk
      rw [← BitVec.getLsbD_eq_getElem hk, ← BitVec.getLsbD_eq_getElem hk, BitVec.getLsbD_and, this]
      by_cases e : k = f.bit <;> simp [e, hb]
  exact split _ rfl

/-- Writing a flag writes its bit and no other. -/
theorem putFlag_getLsbD (f : Flag) (b : Bool) (p : Byte) (k : Nat) (hk : k < 8) :
    (putFlag f b p).getLsbD k = if k = f.bit then b else p.getLsbD k := by
  have hm : f.mask[k] = decide (k = f.bit) := by rw [← BitVec.getLsbD_eq_getElem hk, Flag.mask_getLsbD f k hk]
  rw [BitVec.getLsbD_eq_getElem hk, BitVec.getLsbD_eq_getElem hk, putFlag, BitVec.getElem_or, BitVec.getElem_and,
    BitVec.getElem_not, hm]
  cases b
  · by_cases e : k = f.bit <;> simp [e]
  · rw [if_pos rfl, hm]
    by_cases e : k = f.bit <;> simp [e]

/-- The bits outside a flag's mask. -/
theorem putFlag_and_not (f : Flag) (b : Bool) (p m : Byte) (h : m &&& f.mask = 0) : putFlag f b p &&& m = p &&& m := by
  ext k hk
  have hbit : m[k] = true → f.mask[k] = false := by
    intro e
    have := congrArg (fun v => v.getLsbD k) h
    simpa [BitVec.getLsbD_eq_getElem hk, e] using this
  cases e : m[k] with
  | false => simp [e]
  | true => cases b <;> simp [putFlag, e, hbit e]

end Sys2Proof.Machine
end

