-- ==== Sys2Proof/Laws/Interface.lean ====
section
/-! SUPPORT. Laws of the loader and of the host operations. -/

namespace Sys2Proof.Machine

/-! ## The copy -/

/-- A copy changes memory only. -/
theorem State.copy_eq (s : State) (addr : Addr) (l : List Byte) : s.copy addr l = s.setMem (s.copy addr l).mem := by
  induction l generalizing s addr with
  | nil => rfl
  | cons v l ih => unfold State.copy; rw [ih]; rfl

theorem State.copy_wf {s : State} (h : Canonical s) (addr : Addr) (l : List Byte) : Canonical (s.copy addr l) := by
  induction l generalizing s addr with
  | nil => exact h
  | cons v l ih => exact ih (State.writeByte_wf h ..) _

/-- A byte after a copy that does not run past the last address: the copied byte, or what was there (R366). -/
theorem State.readByte_copy {s : State} (hc : Canonical s) (addr : Addr) (l : List Byte)
    (hl : addr.toNat + l.length ≤ 65536) (b : Addr) :
    (s.copy addr l).readByte b =
      if h : addr.toNat ≤ b.toNat ∧ b.toNat - addr.toNat < l.length then l[b.toNat - addr.toNat] else s.readByte b := by
  induction l generalizing s addr with
  | nil => simp [State.copy]
  | cons v l ih =>
    have e : b = addr ↔ b.toNat = addr.toNat := by rw [BitVec.toNat_inj]
    simp only [List.length_cons] at hl ⊢
    unfold State.copy
    cases l with
    | nil =>
      simp only [List.length_nil, State.copy, State.readByte_writeByte hc]
      by_cases h : b = addr
      · simp [h]
      · rw [if_neg h, dif_neg (fun k => h (e.2 (by omega)))]
    | cons v' l =>
      simp only [List.length_cons] at hl ih ⊢
      have ha : (addr + 1).toNat = addr.toNat + 1 := by simp; omega
      rw [ih (State.writeByte_wf hc ..) (addr + 1) (by omega), State.readByte_writeByte hc]
      simp only [ha]
      by_cases h1 : b.toNat = addr.toNat
      · rw [dif_neg (by omega), if_pos (e.2 h1), dif_pos (by omega)]; simp [h1]
      · rw [if_neg (fun h => h1 (e.1 h))]
        by_cases h2 : addr.toNat + 1 ≤ b.toNat ∧ b.toNat - (addr.toNat + 1) < l.length + 1
        · have k : b.toNat - addr.toNat = (b.toNat - (addr.toNat + 1)) + 1 := by omega
          rw [dif_pos h2, dif_pos (by omega)]
          simp only [k]
          rfl
        · rw [dif_neg h2, dif_neg (by omega)]

/-! ## The operations by run status -/

theorem loadROM_usable {s : State} (h : Usable s = true) (image : List Byte) : loadROM image s = loadImage image s := by
  unfold loadROM
  cases hs : s.status <;> simp [Usable, hs] at h <;> rfl

theorem resetCPU_usable {s : State} (h : Usable s = true) : resetCPU s = reply s.resetRegisters := by
  unfold resetCPU
  cases hs : s.status <;> simp [Usable, hs] at h <;> rfl

/-- A run that answers success or an error was a loop of Steps from the CPU made Ready. -/
theorem run_loop {n : Nat} {s : State} {r : Reply} (h : run n s = r) (hr : r.answer = .ok ∨ ∃ e, r.answer = .err e) :
    runLoop n (s.setStatus .ready) = r := by
  unfold run at h
  cases hs : s.status <;> simp only [hs] at h
  · exact h
  · exact h
  all_goals subst h; simp [refuse] at hr

end Sys2Proof.Machine
end

