-- ==== Sys2Proof/Laws/Operands.lean ====
section
/-! SUPPORT. Laws of the operand forms: the numbers behind the addresses, which addresses depend on what, and the operand
bytes of JSR. -/

namespace Sys2Proof.Machine

/-! ## Numbers -/

theorem zext_toNat (b : Byte) : (zext b).toNat = b.toNat := by
  have := b.isLt
  simp [zext]
  omega

theorem stackAddr_toNat (v : Byte) : (stackAddr v).toNat = 0x0100 + v.toNat := by
  have := v.isLt
  simp [stackAddr, Config.stackBase]
  omega

theorem stackAddr_inj {v w : Byte} : stackAddr v = stackAddr w ↔ v = w := by
  rw [← BitVec.toNat_inj, ← BitVec.toNat_inj, stackAddr_toNat, stackAddr_toNat]
  omega

/-- The word at an address, as a number (R51). -/
theorem State.readWord_toNat (s : State) (addr : Addr) :
    (s.readWord addr).toNat = (s.readByte addr).toNat + 256 * (s.readByte (addr + 1)).toNat :=
  wordOf_toNat ..

theorem State.flag_eq_bit (s : State) (f : Flag) : s.flag f = s.p.getLsbD f.bit := testFlag_eq_bit f s.p

/-! ## What an effective address depends on -/

/-- An effective address depends on X, Y and memory only. -/
theorem ea_congr (m : Place) {s t : State} (hx : s.x = t.x) (hy : s.y = t.y) (hm : s.mem = t.mem) : ea m s = ea m t := by
  cases m <;> simp [ea, State.readWord, State.readByte, *]

/-- An operand byte depends on X, Y and memory only. -/
theorem Source.load_congr (o : Source) {s t : State} (hx : s.x = t.x) (hy : s.y = t.y) (hm : s.mem = t.mem) :
    o.load s = o.load t := by
  cases o with
  | imm d => rfl
  | mem m => simp only [Source.load, ea_congr m hx hy hm, State.readByte, hm]

/-! ## JSR -/

/-- Where neither push hits the operand byte and memory holds what was fetched, or a push hits it, JSR reads memory. -/
theorem jsrOperandByte_eq_read {s t : State} {addr : Addr} {v : Byte}
    (h : addr ≠ stackAddr s.sp → addr ≠ stackAddr (s.sp - 1) → t.readByte addr = v) :
    jsrOperandByte s t addr v = t.readByte addr := by
  unfold jsrOperandByte
  split
  · rfl
  · rename_i n
    simp only [not_or] at n
    exact (h n.1 n.2).symm

/-- Where no push hits the operand byte, JSR reads what was fetched. -/
theorem jsrOperandByte_eq_fetched {s t : State} {addr : Addr} {v : Byte} (h1 : addr ≠ stackAddr s.sp)
    (h2 : addr ≠ stackAddr (s.sp - 1)) : jsrOperandByte s t addr v = v :=
  if_neg (fun h => h.elim h1 h2)

end Sys2Proof.Machine
end

