-- ==== Sys2Proof/Laws/PerInstr.lean ====
section
/-! SUPPORT. Statements about every instruction as syntax, made per instruction: one lemma per constructor of `Instr`. -/

/-! ## DecodeEncode: the decoder reads back what the encoder writes -/

/-- Decoding the bytes of `i`, whatever follows them, gives `i` and what follows. -/
def Sys2Proof.Laws.DecodeEncode.Statement (i : Sys2Proof.Instr) : Prop :=
  ∀ rest, Sys2Proof.decode (Sys2Proof.encode i ++ rest) = .ok i rest

namespace Sys2Proof.Laws.DecodeEncode

/-- What a word instruction needs beside the table: its word is put together again. -/
theorem of_word {make : Addr → Instr} {w : Addr} {bytes : List Byte}
    (h : ∀ rest, decode (bytes ++ rest) = .ok (make (wordOf (highByte w) (lowByte w))) rest) :
    ∀ rest, decode (bytes ++ rest) = .ok (make w) rest := by
  simpa only [wordOf_high_low] using h

theorem ldaImm (d : Byte) : Statement (.ldaImm d) := fun _ => rfl
theorem ldaZp (d : Byte) : Statement (.ldaZp d) := fun _ => rfl
theorem ldaZpX (d : Byte) : Statement (.ldaZpX d) := fun _ => rfl
theorem ldaAbs (w : Addr) : Statement (.ldaAbs w) := of_word (make := .ldaAbs) fun _ => rfl
theorem ldaAbsX (w : Addr) : Statement (.ldaAbsX w) := of_word (make := .ldaAbsX) fun _ => rfl
theorem ldaAbsY (w : Addr) : Statement (.ldaAbsY w) := of_word (make := .ldaAbsY) fun _ => rfl
theorem ldaIndX (d : Byte) : Statement (.ldaIndX d) := fun _ => rfl
theorem ldaIndY (d : Byte) : Statement (.ldaIndY d) := fun _ => rfl
theorem ldxImm (d : Byte) : Statement (.ldxImm d) := fun _ => rfl
theorem ldxZp (d : Byte) : Statement (.ldxZp d) := fun _ => rfl
theorem ldxZpY (d : Byte) : Statement (.ldxZpY d) := fun _ => rfl
theorem ldxAbs (w : Addr) : Statement (.ldxAbs w) := of_word (make := .ldxAbs) fun _ => rfl
theorem ldxAbsY (w : Addr) : Statement (.ldxAbsY w) := of_word (make := .ldxAbsY) fun _ => rfl
theorem ldyImm (d : Byte) : Statement (.ldyImm d) := fun _ => rfl
theorem ldyZp (d : Byte) : Statement (.ldyZp d) := fun _ => rfl
theorem ldyZpX (d : Byte) : Statement (.ldyZpX d) := fun _ => rfl
theorem ldyAbs (w : Addr) : Statement (.ldyAbs w) := of_word (make := .ldyAbs) fun _ => rfl
theorem ldyAbsX (w : Addr) : Statement (.ldyAbsX w) := of_word (make := .ldyAbsX) fun _ => rfl
theorem tax : Statement .tax := fun _ => rfl
theorem adcImm (d : Byte) : Statement (.adcImm d) := fun _ => rfl
theorem adcZp (d : Byte) : Statement (.adcZp d) := fun _ => rfl
theorem adcZpX (d : Byte) : Statement (.adcZpX d) := fun _ => rfl
theorem adcAbs (w : Addr) : Statement (.adcAbs w) := of_word (make := .adcAbs) fun _ => rfl
theorem adcAbsX (w : Addr) : Statement (.adcAbsX w) := of_word (make := .adcAbsX) fun _ => rfl
theorem adcAbsY (w : Addr) : Statement (.adcAbsY w) := of_word (make := .adcAbsY) fun _ => rfl
theorem adcIndX (d : Byte) : Statement (.adcIndX d) := fun _ => rfl
theorem adcIndY (d : Byte) : Statement (.adcIndY d) := fun _ => rfl
theorem cmpImm (d : Byte) : Statement (.cmpImm d) := fun _ => rfl
theorem cmpZp (d : Byte) : Statement (.cmpZp d) := fun _ => rfl
theorem cmpZpX (d : Byte) : Statement (.cmpZpX d) := fun _ => rfl
theorem cmpAbs (w : Addr) : Statement (.cmpAbs w) := of_word (make := .cmpAbs) fun _ => rfl
theorem cmpAbsX (w : Addr) : Statement (.cmpAbsX w) := of_word (make := .cmpAbsX) fun _ => rfl
theorem cmpAbsY (w : Addr) : Statement (.cmpAbsY w) := of_word (make := .cmpAbsY) fun _ => rfl
theorem cmpIndX (d : Byte) : Statement (.cmpIndX d) := fun _ => rfl
theorem cmpIndY (d : Byte) : Statement (.cmpIndY d) := fun _ => rfl
theorem cpxImm (d : Byte) : Statement (.cpxImm d) := fun _ => rfl
theorem cpxZp (d : Byte) : Statement (.cpxZp d) := fun _ => rfl
theorem cpxAbs (w : Addr) : Statement (.cpxAbs w) := of_word (make := .cpxAbs) fun _ => rfl
theorem cpyImm (d : Byte) : Statement (.cpyImm d) := fun _ => rfl
theorem cpyZp (d : Byte) : Statement (.cpyZp d) := fun _ => rfl
theorem cpyAbs (w : Addr) : Statement (.cpyAbs w) := of_word (make := .cpyAbs) fun _ => rfl
theorem andImm (d : Byte) : Statement (.andImm d) := fun _ => rfl
theorem andZp (d : Byte) : Statement (.andZp d) := fun _ => rfl
theorem andZpX (d : Byte) : Statement (.andZpX d) := fun _ => rfl
theorem andAbs (w : Addr) : Statement (.andAbs w) := of_word (make := .andAbs) fun _ => rfl
theorem andAbsX (w : Addr) : Statement (.andAbsX w) := of_word (make := .andAbsX) fun _ => rfl
theorem andAbsY (w : Addr) : Statement (.andAbsY w) := of_word (make := .andAbsY) fun _ => rfl
theorem andIndX (d : Byte) : Statement (.andIndX d) := fun _ => rfl
theorem andIndY (d : Byte) : Statement (.andIndY d) := fun _ => rfl
theorem eorImm (d : Byte) : Statement (.eorImm d) := fun _ => rfl
theorem eorZp (d : Byte) : Statement (.eorZp d) := fun _ => rfl
theorem eorZpX (d : Byte) : Statement (.eorZpX d) := fun _ => rfl
theorem eorAbs (w : Addr) : Statement (.eorAbs w) := of_word (make := .eorAbs) fun _ => rfl
theorem eorAbsX (w : Addr) : Statement (.eorAbsX w) := of_word (make := .eorAbsX) fun _ => rfl
theorem eorAbsY (w : Addr) : Statement (.eorAbsY w) := of_word (make := .eorAbsY) fun _ => rfl
theorem eorIndX (d : Byte) : Statement (.eorIndX d) := fun _ => rfl
theorem eorIndY (d : Byte) : Statement (.eorIndY d) := fun _ => rfl
theorem oraImm (d : Byte) : Statement (.oraImm d) := fun _ => rfl
theorem oraZp (d : Byte) : Statement (.oraZp d) := fun _ => rfl
theorem oraZpX (d : Byte) : Statement (.oraZpX d) := fun _ => rfl
theorem oraAbs (w : Addr) : Statement (.oraAbs w) := of_word (make := .oraAbs) fun _ => rfl
theorem oraAbsX (w : Addr) : Statement (.oraAbsX w) := of_word (make := .oraAbsX) fun _ => rfl
theorem oraAbsY (w : Addr) : Statement (.oraAbsY w) := of_word (make := .oraAbsY) fun _ => rfl
theorem oraIndX (d : Byte) : Statement (.oraIndX d) := fun _ => rfl
theorem oraIndY (d : Byte) : Statement (.oraIndY d) := fun _ => rfl
theorem bitZp (d : Byte) : Statement (.bitZp d) := fun _ => rfl
theorem bitAbs (w : Addr) : Statement (.bitAbs w) := of_word (make := .bitAbs) fun _ => rfl
theorem aslAcc : Statement .aslAcc := fun _ => rfl
theorem aslZp (d : Byte) : Statement (.aslZp d) := fun _ => rfl
theorem aslZpX (d : Byte) : Statement (.aslZpX d) := fun _ => rfl
theorem aslAbs (w : Addr) : Statement (.aslAbs w) := of_word (make := .aslAbs) fun _ => rfl
theorem aslAbsX (w : Addr) : Statement (.aslAbsX w) := of_word (make := .aslAbsX) fun _ => rfl
theorem lsrAcc : Statement .lsrAcc := fun _ => rfl
theorem lsrZp (d : Byte) : Statement (.lsrZp d) := fun _ => rfl
theorem lsrZpX (d : Byte) : Statement (.lsrZpX d) := fun _ => rfl
theorem lsrAbs (w : Addr) : Statement (.lsrAbs w) := of_word (make := .lsrAbs) fun _ => rfl
theorem lsrAbsX (w : Addr) : Statement (.lsrAbsX w) := of_word (make := .lsrAbsX) fun _ => rfl
theorem rolAcc : Statement .rolAcc := fun _ => rfl
theorem rolZp (d : Byte) : Statement (.rolZp d) := fun _ => rfl
theorem rolZpX (d : Byte) : Statement (.rolZpX d) := fun _ => rfl
theorem rolAbs (w : Addr) : Statement (.rolAbs w) := of_word (make := .rolAbs) fun _ => rfl
theorem rolAbsX (w : Addr) : Statement (.rolAbsX w) := of_word (make := .rolAbsX) fun _ => rfl
theorem inx : Statement .inx := fun _ => rfl
theorem iny : Statement .iny := fun _ => rfl
theorem dex : Statement .dex := fun _ => rfl
theorem dey : Statement .dey := fun _ => rfl
theorem incZp (d : Byte) : Statement (.incZp d) := fun _ => rfl
theorem incZpX (d : Byte) : Statement (.incZpX d) := fun _ => rfl
theorem incAbs (w : Addr) : Statement (.incAbs w) := of_word (make := .incAbs) fun _ => rfl
theorem incAbsX (w : Addr) : Statement (.incAbsX w) := of_word (make := .incAbsX) fun _ => rfl
theorem decZp (d : Byte) : Statement (.decZp d) := fun _ => rfl
theorem decZpX (d : Byte) : Statement (.decZpX d) := fun _ => rfl
theorem decAbs (w : Addr) : Statement (.decAbs w) := of_word (make := .decAbs) fun _ => rfl
theorem decAbsX (w : Addr) : Statement (.decAbsX w) := of_word (make := .decAbsX) fun _ => rfl
theorem bcc (d : Byte) : Statement (.bcc d) := fun _ => rfl
theorem bcs (d : Byte) : Statement (.bcs d) := fun _ => rfl
theorem beq (d : Byte) : Statement (.beq d) := fun _ => rfl
theorem bne (d : Byte) : Statement (.bne d) := fun _ => rfl
theorem bmi (d : Byte) : Statement (.bmi d) := fun _ => rfl
theorem bpl (d : Byte) : Statement (.bpl d) := fun _ => rfl
theorem bvc (d : Byte) : Statement (.bvc d) := fun _ => rfl
theorem bvs (d : Byte) : Statement (.bvs d) := fun _ => rfl
theorem jmpAbs (w : Addr) : Statement (.jmpAbs w) := of_word (make := .jmpAbs) fun _ => rfl
theorem jmpInd (w : Addr) : Statement (.jmpInd w) := of_word (make := .jmpInd) fun _ => rfl
theorem jsr (w : Addr) : Statement (.jsr w) := of_word (make := .jsr) fun _ => rfl
theorem clc : Statement .clc := fun _ => rfl
theorem cld : Statement .cld := fun _ => rfl
theorem cli : Statement .cli := fun _ => rfl
theorem clv : Statement .clv := fun _ => rfl
theorem pha : Statement .pha := fun _ => rfl
theorem php : Statement .php := fun _ => rfl
theorem pla : Statement .pla := fun _ => rfl
theorem plp : Statement .plp := fun _ => rfl
theorem brk : Statement .brk := fun _ => rfl

end Sys2Proof.Laws.DecodeEncode

/-! ## WellFormed: the descriptor of every instruction is well formed -/

/-- The mnemonic of `i` has the mode of `i`, and the encoding of `i` is one byte longer than the operand of that mode. -/
def Sys2Proof.Laws.WellFormed.Statement (i : Sys2Proof.Instr) : Prop := i.wellFormed = true

namespace Sys2Proof.Laws.WellFormed

theorem ldaImm (d : Byte) : Statement (.ldaImm d) := rfl
theorem ldaZp (d : Byte) : Statement (.ldaZp d) := rfl
theorem ldaZpX (d : Byte) : Statement (.ldaZpX d) := rfl
theorem ldaAbs (w : Addr) : Statement (.ldaAbs w) := rfl
theorem ldaAbsX (w : Addr) : Statement (.ldaAbsX w) := rfl
theorem ldaAbsY (w : Addr) : Statement (.ldaAbsY w) := rfl
theorem ldaIndX (d : Byte) : Statement (.ldaIndX d) := rfl
theorem ldaIndY (d : Byte) : Statement (.ldaIndY d) := rfl
theorem ldxImm (d : Byte) : Statement (.ldxImm d) := rfl
theorem ldxZp (d : Byte) : Statement (.ldxZp d) := rfl
theorem ldxZpY (d : Byte) : Statement (.ldxZpY d) := rfl
theorem ldxAbs (w : Addr) : Statement (.ldxAbs w) := rfl
theorem ldxAbsY (w : Addr) : Statement (.ldxAbsY w) := rfl
theorem ldyImm (d : Byte) : Statement (.ldyImm d) := rfl
theorem ldyZp (d : Byte) : Statement (.ldyZp d) := rfl
theorem ldyZpX (d : Byte) : Statement (.ldyZpX d) := rfl
theorem ldyAbs (w : Addr) : Statement (.ldyAbs w) := rfl
theorem ldyAbsX (w : Addr) : Statement (.ldyAbsX w) := rfl
theorem tax : Statement .tax := rfl
theorem adcImm (d : Byte) : Statement (.adcImm d) := rfl
theorem adcZp (d : Byte) : Statement (.adcZp d) := rfl
theorem adcZpX (d : Byte) : Statement (.adcZpX d) := rfl
theorem adcAbs (w : Addr) : Statement (.adcAbs w) := rfl
theorem adcAbsX (w : Addr) : Statement (.adcAbsX w) := rfl
theorem adcAbsY (w : Addr) : Statement (.adcAbsY w) := rfl
theorem adcIndX (d : Byte) : Statement (.adcIndX d) := rfl
theorem adcIndY (d : Byte) : Statement (.adcIndY d) := rfl
theorem cmpImm (d : Byte) : Statement (.cmpImm d) := rfl
theorem cmpZp (d : Byte) : Statement (.cmpZp d) := rfl
theorem cmpZpX (d : Byte) : Statement (.cmpZpX d) := rfl
theorem cmpAbs (w : Addr) : Statement (.cmpAbs w) := rfl
theorem cmpAbsX (w : Addr) : Statement (.cmpAbsX w) := rfl
theorem cmpAbsY (w : Addr) : Statement (.cmpAbsY w) := rfl
theorem cmpIndX (d : Byte) : Statement (.cmpIndX d) := rfl
theorem cmpIndY (d : Byte) : Statement (.cmpIndY d) := rfl
theorem cpxImm (d : Byte) : Statement (.cpxImm d) := rfl
theorem cpxZp (d : Byte) : Statement (.cpxZp d) := rfl
theorem cpxAbs (w : Addr) : Statement (.cpxAbs w) := rfl
theorem cpyImm (d : Byte) : Statement (.cpyImm d) := rfl
theorem cpyZp (d : Byte) : Statement (.cpyZp d) := rfl
theorem cpyAbs (w : Addr) : Statement (.cpyAbs w) := rfl
theorem andImm (d : Byte) : Statement (.andImm d) := rfl
theorem andZp (d : Byte) : Statement (.andZp d) := rfl
theorem andZpX (d : Byte) : Statement (.andZpX d) := rfl
theorem andAbs (w : Addr) : Statement (.andAbs w) := rfl
theorem andAbsX (w : Addr) : Statement (.andAbsX w) := rfl
theorem andAbsY (w : Addr) : Statement (.andAbsY w) := rfl
theorem andIndX (d : Byte) : Statement (.andIndX d) := rfl
theorem andIndY (d : Byte) : Statement (.andIndY d) := rfl
theorem eorImm (d : Byte) : Statement (.eorImm d) := rfl
theorem eorZp (d : Byte) : Statement (.eorZp d) := rfl
theorem eorZpX (d : Byte) : Statement (.eorZpX d) := rfl
theorem eorAbs (w : Addr) : Statement (.eorAbs w) := rfl
theorem eorAbsX (w : Addr) : Statement (.eorAbsX w) := rfl
theorem eorAbsY (w : Addr) : Statement (.eorAbsY w) := rfl
theorem eorIndX (d : Byte) : Statement (.eorIndX d) := rfl
theorem eorIndY (d : Byte) : Statement (.eorIndY d) := rfl
theorem oraImm (d : Byte) : Statement (.oraImm d) := rfl
theorem oraZp (d : Byte) : Statement (.oraZp d) := rfl
theorem oraZpX (d : Byte) : Statement (.oraZpX d) := rfl
theorem oraAbs (w : Addr) : Statement (.oraAbs w) := rfl
theorem oraAbsX (w : Addr) : Statement (.oraAbsX w) := rfl
theorem oraAbsY (w : Addr) : Statement (.oraAbsY w) := rfl
theorem oraIndX (d : Byte) : Statement (.oraIndX d) := rfl
theorem oraIndY (d : Byte) : Statement (.oraIndY d) := rfl
theorem bitZp (d : Byte) : Statement (.bitZp d) := rfl
theorem bitAbs (w : Addr) : Statement (.bitAbs w) := rfl
theorem aslAcc : Statement .aslAcc := rfl
theorem aslZp (d : Byte) : Statement (.aslZp d) := rfl
theorem aslZpX (d : Byte) : Statement (.aslZpX d) := rfl
theorem aslAbs (w : Addr) : Statement (.aslAbs w) := rfl
theorem aslAbsX (w : Addr) : Statement (.aslAbsX w) := rfl
theorem lsrAcc : Statement .lsrAcc := rfl
theorem lsrZp (d : Byte) : Statement (.lsrZp d) := rfl
theorem lsrZpX (d : Byte) : Statement (.lsrZpX d) := rfl
theorem lsrAbs (w : Addr) : Statement (.lsrAbs w) := rfl
theorem lsrAbsX (w : Addr) : Statement (.lsrAbsX w) := rfl
theorem rolAcc : Statement .rolAcc := rfl
theorem rolZp (d : Byte) : Statement (.rolZp d) := rfl
theorem rolZpX (d : Byte) : Statement (.rolZpX d) := rfl
theorem rolAbs (w : Addr) : Statement (.rolAbs w) := rfl
theorem rolAbsX (w : Addr) : Statement (.rolAbsX w) := rfl
theorem inx : Statement .inx := rfl
theorem iny : Statement .iny := rfl
theorem dex : Statement .dex := rfl
theorem dey : Statement .dey := rfl
theorem incZp (d : Byte) : Statement (.incZp d) := rfl
theorem incZpX (d : Byte) : Statement (.incZpX d) := rfl
theorem incAbs (w : Addr) : Statement (.incAbs w) := rfl
theorem incAbsX (w : Addr) : Statement (.incAbsX w) := rfl
theorem decZp (d : Byte) : Statement (.decZp d) := rfl
theorem decZpX (d : Byte) : Statement (.decZpX d) := rfl
theorem decAbs (w : Addr) : Statement (.decAbs w) := rfl
theorem decAbsX (w : Addr) : Statement (.decAbsX w) := rfl
theorem bcc (d : Byte) : Statement (.bcc d) := rfl
theorem bcs (d : Byte) : Statement (.bcs d) := rfl
theorem beq (d : Byte) : Statement (.beq d) := rfl
theorem bne (d : Byte) : Statement (.bne d) := rfl
theorem bmi (d : Byte) : Statement (.bmi d) := rfl
theorem bpl (d : Byte) : Statement (.bpl d) := rfl
theorem bvc (d : Byte) : Statement (.bvc d) := rfl
theorem bvs (d : Byte) : Statement (.bvs d) := rfl
theorem jmpAbs (w : Addr) : Statement (.jmpAbs w) := rfl
theorem jmpInd (w : Addr) : Statement (.jmpInd w) := rfl
theorem jsr (w : Addr) : Statement (.jsr w) := rfl
theorem clc : Statement .clc := rfl
theorem cld : Statement .cld := rfl
theorem cli : Statement .cli := rfl
theorem clv : Statement .clv := rfl
theorem pha : Statement .pha := rfl
theorem php : Statement .php := rfl
theorem pla : Statement .pla := rfl
theorem plp : Statement .plp := rfl
theorem brk : Statement .brk := rfl

end Sys2Proof.Laws.WellFormed
end

