-- ==== Sys2Proof/Tests/Slice0.lean ====
section
/-! SUPPORT. Tests. Expected results are the spec's: the "Encoding" lines of the instruction rules, the vectors V1 to V98, M1
to M5, L1, L2, L4 to L7, R1 to R6 of 95_test_vectors.md. And the witnesses: for every obligation with hypotheses, states and
operands that meet them together. -/

open Sys2Proof Sys2Proof.Machine

namespace Sys2Proof.Tests

/-! ## Well-formedness: an ill-formed descriptor for each check -/

/-- LDA has no zero-page,Y mode (R161), though two bytes are the size of that mode. -/
theorem test_wellFormed_refuses_mode :
    (⟨.LDA, .zpy, 2⟩ : Descriptor).modeOk = false ∧ (⟨.LDA, .zpy, 2⟩ : Descriptor).sizeOk = true ∧
    (⟨.LDA, .zpy, 2⟩ : Descriptor).wellFormed = false := by decide

/-- LDA immediate takes two bytes (R82), not three. -/
theorem test_wellFormed_refuses_size :
    (⟨.LDA, .imm, 3⟩ : Descriptor).sizeOk = false ∧ (⟨.LDA, .imm, 3⟩ : Descriptor).modeOk = true ∧
    (⟨.LDA, .imm, 3⟩ : Descriptor).wellFormed = false := by decide

theorem test_wellFormed_accepts :
    (⟨.LDA, .imm, 2⟩ : Descriptor).wellFormed = true ∧ (⟨.JMP, .ind, 3⟩ : Descriptor).wellFormed = true ∧
    (⟨.BRK, .imp, 1⟩ : Descriptor).wellFormed = true := by decide

/-- Every row of the opcode table is a well-formed descriptor. -/
theorem test_table_wellFormed :
    opcodeTable.all (fun r => (⟨r.mnemonic, r.mode, 1 + r.mode.operandBytes⟩ : Descriptor).wellFormed) = true := by decide

/-! ## Decoding: every constructor -/

/-- Bytes from the "Encoding" line of R161. -/
theorem test_decode_LDA :
    decode [0xA9, 0x34, 0x77] = .ok (.ldaImm 0x34) [0x77] ∧
    decode [0xA5, 0x34, 0x77] = .ok (.ldaZp 0x34) [0x77] ∧
    decode [0xB5, 0x34, 0x77] = .ok (.ldaZpX 0x34) [0x77] ∧
    decode [0xAD, 0x34, 0x12, 0x77] = .ok (.ldaAbs 0x1234) [0x77] ∧
    decode [0xBD, 0x34, 0x12, 0x77] = .ok (.ldaAbsX 0x1234) [0x77] ∧
    decode [0xB9, 0x34, 0x12, 0x77] = .ok (.ldaAbsY 0x1234) [0x77] ∧
    decode [0xA1, 0x34, 0x77] = .ok (.ldaIndX 0x34) [0x77] ∧
    decode [0xB1, 0x34, 0x77] = .ok (.ldaIndY 0x34) [0x77] := by decide

/-- Bytes from the "Encoding" line of R162. -/
theorem test_decode_LDX :
    decode [0xA2, 0x34, 0x77] = .ok (.ldxImm 0x34) [0x77] ∧
    decode [0xA6, 0x34, 0x77] = .ok (.ldxZp 0x34) [0x77] ∧
    decode [0xB6, 0x34, 0x77] = .ok (.ldxZpY 0x34) [0x77] ∧
    decode [0xAE, 0x34, 0x12, 0x77] = .ok (.ldxAbs 0x1234) [0x77] ∧
    decode [0xBE, 0x34, 0x12, 0x77] = .ok (.ldxAbsY 0x1234) [0x77] := by decide

/-- Bytes from the "Encoding" line of R163. -/
theorem test_decode_LDY :
    decode [0xA0, 0x34, 0x77] = .ok (.ldyImm 0x34) [0x77] ∧
    decode [0xA4, 0x34, 0x77] = .ok (.ldyZp 0x34) [0x77] ∧
    decode [0xB4, 0x34, 0x77] = .ok (.ldyZpX 0x34) [0x77] ∧
    decode [0xAC, 0x34, 0x12, 0x77] = .ok (.ldyAbs 0x1234) [0x77] ∧
    decode [0xBC, 0x34, 0x12, 0x77] = .ok (.ldyAbsX 0x1234) [0x77] := by decide

/-- Bytes from the "Encoding" line of R164. -/
theorem test_decode_TAX :
    decode [0xAA, 0x77] = .ok .tax [0x77] := by decide

/-- Bytes from the "Encoding" line of R181. -/
theorem test_decode_ADC :
    decode [0x69, 0x34, 0x77] = .ok (.adcImm 0x34) [0x77] ∧
    decode [0x65, 0x34, 0x77] = .ok (.adcZp 0x34) [0x77] ∧
    decode [0x75, 0x34, 0x77] = .ok (.adcZpX 0x34) [0x77] ∧
    decode [0x6D, 0x34, 0x12, 0x77] = .ok (.adcAbs 0x1234) [0x77] ∧
    decode [0x7D, 0x34, 0x12, 0x77] = .ok (.adcAbsX 0x1234) [0x77] ∧
    decode [0x79, 0x34, 0x12, 0x77] = .ok (.adcAbsY 0x1234) [0x77] ∧
    decode [0x61, 0x34, 0x77] = .ok (.adcIndX 0x34) [0x77] ∧
    decode [0x71, 0x34, 0x77] = .ok (.adcIndY 0x34) [0x77] := by decide

/-- Bytes from the "Encoding" line of R182. -/
theorem test_decode_CMP :
    decode [0xC9, 0x34, 0x77] = .ok (.cmpImm 0x34) [0x77] ∧
    decode [0xC5, 0x34, 0x77] = .ok (.cmpZp 0x34) [0x77] ∧
    decode [0xD5, 0x34, 0x77] = .ok (.cmpZpX 0x34) [0x77] ∧
    decode [0xCD, 0x34, 0x12, 0x77] = .ok (.cmpAbs 0x1234) [0x77] ∧
    decode [0xDD, 0x34, 0x12, 0x77] = .ok (.cmpAbsX 0x1234) [0x77] ∧
    decode [0xD9, 0x34, 0x12, 0x77] = .ok (.cmpAbsY 0x1234) [0x77] ∧
    decode [0xC1, 0x34, 0x77] = .ok (.cmpIndX 0x34) [0x77] ∧
    decode [0xD1, 0x34, 0x77] = .ok (.cmpIndY 0x34) [0x77] := by decide

/-- Bytes from the "Encoding" line of R183. -/
theorem test_decode_CPX :
    decode [0xE0, 0x34, 0x77] = .ok (.cpxImm 0x34) [0x77] ∧
    decode [0xE4, 0x34, 0x77] = .ok (.cpxZp 0x34) [0x77] ∧
    decode [0xEC, 0x34, 0x12, 0x77] = .ok (.cpxAbs 0x1234) [0x77] := by decide

/-- Bytes from the "Encoding" line of R184. -/
theorem test_decode_CPY :
    decode [0xC0, 0x34, 0x77] = .ok (.cpyImm 0x34) [0x77] ∧
    decode [0xC4, 0x34, 0x77] = .ok (.cpyZp 0x34) [0x77] ∧
    decode [0xCC, 0x34, 0x12, 0x77] = .ok (.cpyAbs 0x1234) [0x77] := by decide

/-- Bytes from the "Encoding" line of R200. -/
theorem test_decode_AND :
    decode [0x29, 0x34, 0x77] = .ok (.andImm 0x34) [0x77] ∧
    decode [0x25, 0x34, 0x77] = .ok (.andZp 0x34) [0x77] ∧
    decode [0x35, 0x34, 0x77] = .ok (.andZpX 0x34) [0x77] ∧
    decode [0x2D, 0x34, 0x12, 0x77] = .ok (.andAbs 0x1234) [0x77] ∧
    decode [0x3D, 0x34, 0x12, 0x77] = .ok (.andAbsX 0x1234) [0x77] ∧
    decode [0x39, 0x34, 0x12, 0x77] = .ok (.andAbsY 0x1234) [0x77] ∧
    decode [0x21, 0x34, 0x77] = .ok (.andIndX 0x34) [0x77] ∧
    decode [0x31, 0x34, 0x77] = .ok (.andIndY 0x34) [0x77] := by decide

/-- Bytes from the "Encoding" line of R201. -/
theorem test_decode_EOR :
    decode [0x49, 0x34, 0x77] = .ok (.eorImm 0x34) [0x77] ∧
    decode [0x45, 0x34, 0x77] = .ok (.eorZp 0x34) [0x77] ∧
    decode [0x55, 0x34, 0x77] = .ok (.eorZpX 0x34) [0x77] ∧
    decode [0x4D, 0x34, 0x12, 0x77] = .ok (.eorAbs 0x1234) [0x77] ∧
    decode [0x5D, 0x34, 0x12, 0x77] = .ok (.eorAbsX 0x1234) [0x77] ∧
    decode [0x59, 0x34, 0x12, 0x77] = .ok (.eorAbsY 0x1234) [0x77] ∧
    decode [0x41, 0x34, 0x77] = .ok (.eorIndX 0x34) [0x77] ∧
    decode [0x51, 0x34, 0x77] = .ok (.eorIndY 0x34) [0x77] := by decide

/-- Bytes from the "Encoding" line of R202. -/
theorem test_decode_ORA :
    decode [0x09, 0x34, 0x77] = .ok (.oraImm 0x34) [0x77] ∧
    decode [0x05, 0x34, 0x77] = .ok (.oraZp 0x34) [0x77] ∧
    decode [0x15, 0x34, 0x77] = .ok (.oraZpX 0x34) [0x77] ∧
    decode [0x0D, 0x34, 0x12, 0x77] = .ok (.oraAbs 0x1234) [0x77] ∧
    decode [0x1D, 0x34, 0x12, 0x77] = .ok (.oraAbsX 0x1234) [0x77] ∧
    decode [0x19, 0x34, 0x12, 0x77] = .ok (.oraAbsY 0x1234) [0x77] ∧
    decode [0x01, 0x34, 0x77] = .ok (.oraIndX 0x34) [0x77] ∧
    decode [0x11, 0x34, 0x77] = .ok (.oraIndY 0x34) [0x77] := by decide

/-- Bytes from the "Encoding" line of R203. -/
theorem test_decode_BIT :
    decode [0x24, 0x34, 0x77] = .ok (.bitZp 0x34) [0x77] ∧
    decode [0x2C, 0x34, 0x12, 0x77] = .ok (.bitAbs 0x1234) [0x77] := by decide

/-- Bytes from the "Encoding" line of R221. -/
theorem test_decode_ASL :
    decode [0x0A, 0x77] = .ok .aslAcc [0x77] ∧
    decode [0x06, 0x34, 0x77] = .ok (.aslZp 0x34) [0x77] ∧
    decode [0x16, 0x34, 0x77] = .ok (.aslZpX 0x34) [0x77] ∧
    decode [0x0E, 0x34, 0x12, 0x77] = .ok (.aslAbs 0x1234) [0x77] ∧
    decode [0x1E, 0x34, 0x12, 0x77] = .ok (.aslAbsX 0x1234) [0x77] := by decide

/-- Bytes from the "Encoding" line of R222. -/
theorem test_decode_LSR :
    decode [0x4A, 0x77] = .ok .lsrAcc [0x77] ∧
    decode [0x46, 0x34, 0x77] = .ok (.lsrZp 0x34) [0x77] ∧
    decode [0x56, 0x34, 0x77] = .ok (.lsrZpX 0x34) [0x77] ∧
    decode [0x4E, 0x34, 0x12, 0x77] = .ok (.lsrAbs 0x1234) [0x77] ∧
    decode [0x5E, 0x34, 0x12, 0x77] = .ok (.lsrAbsX 0x1234) [0x77] := by decide

/-- Bytes from the "Encoding" line of R223. -/
theorem test_decode_ROL :
    decode [0x2A, 0x77] = .ok .rolAcc [0x77] ∧
    decode [0x26, 0x34, 0x77] = .ok (.rolZp 0x34) [0x77] ∧
    decode [0x36, 0x34, 0x77] = .ok (.rolZpX 0x34) [0x77] ∧
    decode [0x2E, 0x34, 0x12, 0x77] = .ok (.rolAbs 0x1234) [0x77] ∧
    decode [0x3E, 0x34, 0x12, 0x77] = .ok (.rolAbsX 0x1234) [0x77] := by decide

/-- Bytes from the "Encoding" line of R240. -/
theorem test_decode_INX :
    decode [0xE8, 0x77] = .ok .inx [0x77] := by decide

/-- Bytes from the "Encoding" line of R241. -/
theorem test_decode_INY :
    decode [0xC8, 0x77] = .ok .iny [0x77] := by decide

/-- Bytes from the "Encoding" line of R242. -/
theorem test_decode_DEX :
    decode [0xCA, 0x77] = .ok .dex [0x77] := by decide

/-- Bytes from the "Encoding" line of R243. -/
theorem test_decode_DEY :
    decode [0x88, 0x77] = .ok .dey [0x77] := by decide

/-- Bytes from the "Encoding" line of R244. -/
theorem test_decode_INC :
    decode [0xE6, 0x34, 0x77] = .ok (.incZp 0x34) [0x77] ∧
    decode [0xF6, 0x34, 0x77] = .ok (.incZpX 0x34) [0x77] ∧
    decode [0xEE, 0x34, 0x12, 0x77] = .ok (.incAbs 0x1234) [0x77] ∧
    decode [0xFE, 0x34, 0x12, 0x77] = .ok (.incAbsX 0x1234) [0x77] := by decide

/-- Bytes from the "Encoding" line of R245. -/
theorem test_decode_DEC :
    decode [0xC6, 0x34, 0x77] = .ok (.decZp 0x34) [0x77] ∧
    decode [0xD6, 0x34, 0x77] = .ok (.decZpX 0x34) [0x77] ∧
    decode [0xCE, 0x34, 0x12, 0x77] = .ok (.decAbs 0x1234) [0x77] ∧
    decode [0xDE, 0x34, 0x12, 0x77] = .ok (.decAbsX 0x1234) [0x77] := by decide

/-- Bytes from the "Encoding" line of R261. -/
theorem test_decode_BCC :
    decode [0x90, 0x34, 0x77] = .ok (.bcc 0x34) [0x77] := by decide

/-- Bytes from the "Encoding" line of R262. -/
theorem test_decode_BCS :
    decode [0xB0, 0x34, 0x77] = .ok (.bcs 0x34) [0x77] := by decide

/-- Bytes from the "Encoding" line of R263. -/
theorem test_decode_BEQ :
    decode [0xF0, 0x34, 0x77] = .ok (.beq 0x34) [0x77] := by decide

/-- Bytes from the "Encoding" line of R264. -/
theorem test_decode_BNE :
    decode [0xD0, 0x34, 0x77] = .ok (.bne 0x34) [0x77] := by decide

/-- Bytes from the "Encoding" line of R265. -/
theorem test_decode_BMI :
    decode [0x30, 0x34, 0x77] = .ok (.bmi 0x34) [0x77] := by decide

/-- Bytes from the "Encoding" line of R266. -/
theorem test_decode_BPL :
    decode [0x10, 0x34, 0x77] = .ok (.bpl 0x34) [0x77] := by decide

/-- Bytes from the "Encoding" line of R267. -/
theorem test_decode_BVC :
    decode [0x50, 0x34, 0x77] = .ok (.bvc 0x34) [0x77] := by decide

/-- Bytes from the "Encoding" line of R268. -/
theorem test_decode_BVS :
    decode [0x70, 0x34, 0x77] = .ok (.bvs 0x34) [0x77] := by decide

/-- Bytes from the "Encoding" line of R280, R281. -/
theorem test_decode_JMP :
    decode [0x4C, 0x34, 0x12, 0x77] = .ok (.jmpAbs 0x1234) [0x77] ∧
    decode [0x6C, 0x34, 0x12, 0x77] = .ok (.jmpInd 0x1234) [0x77] := by decide

/-- Bytes from the "Encoding" line of R282. -/
theorem test_decode_JSR :
    decode [0x20, 0x34, 0x12, 0x77] = .ok (.jsr 0x1234) [0x77] := by decide

/-- Bytes from the "Encoding" line of R300. -/
theorem test_decode_CLC :
    decode [0x18, 0x77] = .ok .clc [0x77] := by decide

/-- Bytes from the "Encoding" line of R301. -/
theorem test_decode_CLD :
    decode [0xD8, 0x77] = .ok .cld [0x77] := by decide

/-- Bytes from the "Encoding" line of R302. -/
theorem test_decode_CLI :
    decode [0x58, 0x77] = .ok .cli [0x77] := by decide

/-- Bytes from the "Encoding" line of R303. -/
theorem test_decode_CLV :
    decode [0xB8, 0x77] = .ok .clv [0x77] := by decide

/-- Bytes from the "Encoding" line of R304. -/
theorem test_decode_PHA :
    decode [0x48, 0x77] = .ok .pha [0x77] := by decide

/-- Bytes from the "Encoding" line of R305. -/
theorem test_decode_PHP :
    decode [0x08, 0x77] = .ok .php [0x77] := by decide

/-- Bytes from the "Encoding" line of R306. -/
theorem test_decode_PLA :
    decode [0x68, 0x77] = .ok .pla [0x77] := by decide

/-- Bytes from the "Encoding" line of R307. -/
theorem test_decode_PLP :
    decode [0x28, 0x77] = .ok .plp [0x77] := by decide

/-- Bytes from the "Encoding" line of R310. -/
theorem test_decode_BRK :
    decode [0x00, 0x77] = .ok .brk [0x77] := by decide

/-- Bytes of R120 and R121, and a list that ends inside an instruction. -/
theorem test_decode_refuses :
    decode [0xFF, 0x00] = .unimplemented 0xFF ∧ decode [0x02] = .unimplemented 0x02 ∧
    decode [0x85, 0x10] = .unimplemented 0x85 ∧ decode [0xA9] = .truncated ∧ decode [0x4C, 0x00] = .truncated ∧
    decode [] = .truncated := by decide

/-- The host's numbering: the first byte is bits 7 to 0; bits above the given width are zero. -/
theorem test_decodeTableWord :
    decodeTableWord 8 0xAA = some .tax ∧ decodeTableWord 16 0x34A9 = some (.ldaImm 0x34) ∧
    decodeTableWord 24 0x12344C = some (.jmpAbs 0x1234) ∧ decodeTableWord 8 0x12344C = some (.jmpAbs 0x0000) ∧
    decodeTableWord 8 0xFF = none := by decide

/-- The placed instruction is the next one to run. -/
theorem test_withFetchWord :
    step (State.reset.withFetchWord 16 0x80A9) = exec (.ldaImm 0x80) (State.reset.withFetchWord 16 0x80A9) ∧
    step (State.reset.withFetchWord 8 0xE8) = exec .inx (State.reset.withFetchWord 8 0xE8) ∧
    step (State.reset.withFetchWord 24 0x80004C) = exec (.jmpAbs 0x8000) (State.reset.withFetchWord 24 0x80004C) :=
  ⟨rfl, rfl, rfl⟩

/-! ## One Step each: the spec's vectors V1 to V98 -/

/-- The start of the vectors: the state after reset with PC at 0x8000. -/
def at8000 : State := { State.reset with pc := 0x8000 }

/-- `s` with bytes poked. -/
def poked (s : State) (cells : List (Addr × Byte)) : State := cells.foldl (fun t c => t.writeByte c.1 c.2) s

/-- One Step, from the registers of `s` with `code` at PC and `cells` poked, gives the registers and run status of `t`, and
the start's memory with the bytes `changed` and no other. -/
def runs (code : List Byte) (cells : List (Addr × Byte)) (s t : State) (changed : List (Addr × Byte)) : Bool :=
  let start := poked (s.copy s.pc code) cells
  match step start with
  | .next u => decide (u = poked (t.setMem start.mem) changed)
  | .fault _ => false
  | .refused _ => false

theorem test_LDA_V1_to_V5 :
    runs [0xA9, 0x00] [] ({ at8000 with a := 0x55, p := 0x80 })
      ({ at8000 with pc := 0x8002, a := 0x00, p := 0x02 }) [] ∧
    runs [0xA9, 0x80] [] ({ at8000 with p := 0x43 })
      ({ at8000 with pc := 0x8002, p := 0xC1, a := 0x80 }) [] ∧
    runs [0xA5, 0x10] [(0x0010, 0x7F)] at8000
      ({ at8000 with pc := 0x8002, a := 0x7F }) [] ∧
    runs [0xB5, 0xFF] [(0x0000, 0x42)] ({ at8000 with x := 0x01 })
      ({ at8000 with pc := 0x8002, x := 0x01, a := 0x42 }) [] ∧
    runs [0xAD, 0x34, 0x12] [(0x1234, 0xFF)] at8000
      ({ at8000 with pc := 0x8003, a := 0xFF, p := 0x80 }) [] := by decide

theorem test_LDA_V6_to_V10 :
    runs [0xBD, 0xF0, 0x12] [(0x1310, 0x01)] ({ at8000 with x := 0x20 })
      ({ at8000 with pc := 0x8003, x := 0x20, a := 0x01 }) [] ∧
    runs [0xB9, 0xFF, 0xFF] [(0x0001, 0x99)] ({ at8000 with y := 0x02 })
      ({ at8000 with pc := 0x8003, y := 0x02, a := 0x99, p := 0x80 }) [] ∧
    runs [0xA1, 0xFE] [(0x00FF, 0x34), (0x0100, 0x12), (0x1234, 0x77)] ({ at8000 with x := 0x01 })
      ({ at8000 with pc := 0x8002, x := 0x01, a := 0x77 }) [] ∧
    runs [0xB1, 0xFF] [(0x00FF, 0x00), (0x0100, 0x20), (0x2010, 0x5A)] ({ at8000 with y := 0x10 })
      ({ at8000 with pc := 0x8002, y := 0x10, a := 0x5A }) [] ∧
    runs [0xB1, 0x20] [(0x0020, 0x80), (0x0021, 0xFF), (0x007F, 0x11)] ({ at8000 with y := 0xFF })
      ({ at8000 with pc := 0x8002, y := 0xFF, a := 0x11 }) [] := by decide

theorem test_LDX_V11_to_V13 :
    runs [0xA2, 0x00] [] ({ at8000 with x := 0x12 })
      ({ at8000 with pc := 0x8002, x := 0x00, p := 0x02 }) [] ∧
    runs [0xB6, 0xFF] [(0x0001, 0xFE)] ({ at8000 with y := 0x02 })
      ({ at8000 with pc := 0x8002, y := 0x02, x := 0xFE, p := 0x80 }) [] ∧
    runs [0xBE, 0x00, 0x20] [(0x2005, 0x05)] ({ at8000 with y := 0x05 })
      ({ at8000 with pc := 0x8003, y := 0x05, x := 0x05 }) [] := by decide

theorem test_LDY_V14_to_V16 :
    runs [0xA0, 0x80] [] at8000
      ({ at8000 with pc := 0x8002, y := 0x80, p := 0x80 }) [] ∧
    runs [0xB4, 0x80] [(0x0000, 0x00)] ({ at8000 with x := 0x80, y := 0x01 })
      ({ at8000 with pc := 0x8002, x := 0x80, y := 0x00, p := 0x02 }) [] ∧
    runs [0xBC, 0xFF, 0x00] [(0x0100, 0x3C)] ({ at8000 with x := 0x01 })
      ({ at8000 with pc := 0x8003, x := 0x01, y := 0x3C }) [] := by decide

theorem test_TAX_V17_to_V18 :
    runs [0xAA] [] ({ at8000 with a := 0x80, x := 0x01, p := 0x41 })
      ({ at8000 with pc := 0x8001, a := 0x80, x := 0x80, p := 0xC1 }) [] ∧
    runs [0xAA] [] ({ at8000 with a := 0x00, x := 0x01, p := 0x80 })
      ({ at8000 with pc := 0x8001, a := 0x00, x := 0x00, p := 0x02 }) [] := by decide

theorem test_ADC_V19_to_V23 :
    runs [0x69, 0x01] [] ({ at8000 with a := 0x01 })
      ({ at8000 with pc := 0x8002, a := 0x02 }) [] ∧
    runs [0x69, 0x50] [] ({ at8000 with a := 0x50 })
      ({ at8000 with pc := 0x8002, a := 0xA0, p := 0xC0 }) [] ∧
    runs [0x69, 0x90] [] ({ at8000 with a := 0xD0 })
      ({ at8000 with pc := 0x8002, a := 0x60, p := 0x41 }) [] ∧
    runs [0x69, 0x00] [] ({ at8000 with a := 0xFF, p := 0x01 })
      ({ at8000 with pc := 0x8002, a := 0x00, p := 0x03 }) [] ∧
    runs [0x69, 0x00] [] ({ at8000 with a := 0x7F, p := 0x01 })
      ({ at8000 with pc := 0x8002, a := 0x80, p := 0xC0 }) [] := by decide

theorem test_ADC_V24_to_V28 :
    runs [0x69, 0xFF] [] ({ at8000 with a := 0xFF, p := 0x01 })
      ({ at8000 with pc := 0x8002, a := 0xFF, p := 0x81 }) [] ∧
    runs [0x69, 0x01] [] ({ at8000 with a := 0x09, p := 0x08 })
      ({ at8000 with pc := 0x8002, a := 0x0A, p := 0x08 }) [] ∧
    runs [0x69, 0x01] [] ({ at8000 with a := 0x01, p := 0x40 })
      ({ at8000 with pc := 0x8002, a := 0x02, p := 0x00 }) [] ∧
    runs [0x65, 0x10] [(0x0010, 0x20)] ({ at8000 with a := 0x10 })
      ({ at8000 with pc := 0x8002, a := 0x30 }) [] ∧
    runs [0x71, 0x40] [(0x0040, 0xFF), (0x0041, 0x10), (0x1100, 0x02)] ({ at8000 with a := 0x01, y := 0x01 })
      ({ at8000 with pc := 0x8002, a := 0x03, y := 0x01 }) [] := by decide

theorem test_CMP_V29_to_V31 :
    runs [0xC9, 0x40] [] ({ at8000 with a := 0x40 })
      ({ at8000 with pc := 0x8002, a := 0x40, p := 0x03 }) [] ∧
    runs [0xC9, 0x41] [] ({ at8000 with a := 0x40 })
      ({ at8000 with pc := 0x8002, a := 0x40, p := 0x80 }) [] ∧
    runs [0xC9, 0x81] [] ({ at8000 with a := 0x00 })
      ({ at8000 with pc := 0x8002, a := 0x00 }) [] := by decide

theorem test_CMP_V32_to_V33 :
    runs [0xC9, 0x01] [] ({ at8000 with a := 0x81 })
      ({ at8000 with pc := 0x8002, a := 0x81, p := 0x81 }) [] ∧
    runs [0xC9, 0x00] [] ({ at8000 with a := 0x00, p := 0x40 })
      ({ at8000 with pc := 0x8002, a := 0x00, p := 0x43 }) [] := by decide

theorem test_CPX_V34_to_V35 :
    runs [0xE0, 0xFF] [] ({ at8000 with x := 0xFF })
      ({ at8000 with pc := 0x8002, x := 0xFF, p := 0x03 }) [] ∧
    runs [0xE4, 0x10] [(0x0010, 0x06)] ({ at8000 with x := 0x05 })
      ({ at8000 with pc := 0x8002, x := 0x05, p := 0x80 }) [] := by decide

theorem test_CPY_V36_to_V37 :
    runs [0xC0, 0x00] [] ({ at8000 with y := 0x01 })
      ({ at8000 with pc := 0x8002, y := 0x01, p := 0x01 }) [] ∧
    runs [0xCC, 0x00, 0x30] [(0x3000, 0x7F)] ({ at8000 with y := 0x80 })
      ({ at8000 with pc := 0x8003, y := 0x80, p := 0x01 }) [] := by decide

theorem test_AND_V38_to_V39 :
    runs [0x29, 0x0F] [] ({ at8000 with a := 0xF0 })
      ({ at8000 with pc := 0x8002, a := 0x00, p := 0x02 }) [] ∧
    runs [0x29, 0xFF] [] ({ at8000 with a := 0x80 })
      ({ at8000 with pc := 0x8002, a := 0x80, p := 0x80 }) [] := by decide

theorem test_EOR_V40_to_V41 :
    runs [0x49, 0xFF] [] ({ at8000 with a := 0xFF })
      ({ at8000 with pc := 0x8002, a := 0x00, p := 0x02 }) [] ∧
    runs [0x49, 0x80] [] ({ at8000 with a := 0x01 })
      ({ at8000 with pc := 0x8002, a := 0x81, p := 0x80 }) [] := by decide

theorem test_ORA_V42_to_V43 :
    runs [0x09, 0x00] [] ({ at8000 with a := 0x00, p := 0x01 })
      ({ at8000 with pc := 0x8002, a := 0x00, p := 0x03 }) [] ∧
    runs [0x09, 0x80] [] ({ at8000 with a := 0x01 })
      ({ at8000 with pc := 0x8002, a := 0x81, p := 0x80 }) [] := by decide

theorem test_BIT_V44_to_V46 :
    runs [0x24, 0x10] [(0x0010, 0xC0)] ({ at8000 with a := 0x01 })
      ({ at8000 with pc := 0x8002, a := 0x01, p := 0xC2 }) [] ∧
    runs [0x24, 0x10] [(0x0010, 0x3F)] ({ at8000 with a := 0xFF, p := 0xC0 })
      ({ at8000 with pc := 0x8002, a := 0xFF, p := 0x00 }) [] ∧
    runs [0x2C, 0x00, 0x20] [(0x2000, 0x80)] ({ at8000 with a := 0x00 })
      ({ at8000 with pc := 0x8003, a := 0x00, p := 0x82 }) [] := by decide

theorem test_ASL_V47_to_V49 :
    runs [0x0A] [] ({ at8000 with a := 0x80 })
      ({ at8000 with pc := 0x8001, a := 0x00, p := 0x03 }) [] ∧
    runs [0x0A] [] ({ at8000 with a := 0x41, p := 0x01 })
      ({ at8000 with pc := 0x8001, a := 0x82, p := 0x80 }) [] ∧
    runs [0x06, 0x10] [(0x0010, 0xC0)] at8000
      ({ at8000 with pc := 0x8002, p := 0x81 }) [(0x0010, 0x80)] := by decide

theorem test_LSR_V50_to_V52 :
    runs [0x4A] [] ({ at8000 with a := 0x01 })
      ({ at8000 with pc := 0x8001, a := 0x00, p := 0x03 }) [] ∧
    runs [0x4A] [] ({ at8000 with a := 0x80, p := 0x81 })
      ({ at8000 with pc := 0x8001, a := 0x40, p := 0x00 }) [] ∧
    runs [0x5E, 0xFF, 0xFF] [(0x0000, 0x03)] ({ at8000 with x := 0x01 })
      ({ at8000 with pc := 0x8003, x := 0x01, p := 0x01 }) [(0x0000, 0x01)] := by decide

theorem test_ROL_V53_to_V55 :
    runs [0x2A] [] ({ at8000 with a := 0x80, p := 0x01 })
      ({ at8000 with pc := 0x8001, a := 0x01, p := 0x01 }) [] ∧
    runs [0x2A] [] ({ at8000 with a := 0x40 })
      ({ at8000 with pc := 0x8001, a := 0x80, p := 0x80 }) [] ∧
    runs [0x36, 0xFF] [(0x0001, 0x80)] ({ at8000 with x := 0x02 })
      ({ at8000 with pc := 0x8002, x := 0x02, p := 0x03 }) [(0x0001, 0x00)] := by decide

theorem test_INX_V56 :
    runs [0xE8] [] ({ at8000 with x := 0xFF })
      ({ at8000 with pc := 0x8001, x := 0x00, p := 0x02 }) [] := by decide

theorem test_INY_V57 :
    runs [0xC8] [] ({ at8000 with y := 0x7F })
      ({ at8000 with pc := 0x8001, y := 0x80, p := 0x80 }) [] := by decide

theorem test_DEX_V58 :
    runs [0xCA] [] ({ at8000 with x := 0x00 })
      ({ at8000 with pc := 0x8001, x := 0xFF, p := 0x80 }) [] := by decide

theorem test_DEY_V59 :
    runs [0x88] [] ({ at8000 with y := 0x01, p := 0x01 })
      ({ at8000 with pc := 0x8001, y := 0x00, p := 0x03 }) [] := by decide

theorem test_INC_V60_to_V62 :
    runs [0xE6, 0x10] [(0x0010, 0xFF)] at8000
      ({ at8000 with pc := 0x8002, p := 0x02 }) [(0x0010, 0x00)] ∧
    runs [0xEE, 0xFF, 0x7F] [(0x7FFF, 0x7F)] at8000
      ({ at8000 with pc := 0x8003, p := 0x80 }) [(0x7FFF, 0x80)] := by decide

theorem test_DEC_V61_to_V63 :
    runs [0xD6, 0xFF] [(0x0000, 0x00)] ({ at8000 with x := 0x01 })
      ({ at8000 with pc := 0x8002, x := 0x01, p := 0x80 }) [(0x0000, 0xFF)] ∧
    runs [0xDE, 0x00, 0x80] [] ({ at8000 with x := 0x01 })
      ({ at8000 with pc := 0x8003, x := 0x01, p := 0x80 }) [(0x8001, 0xFF)] := by decide

theorem test_BCC_V64_to_V74 :
    runs [0x90, 0x07] [] at8000
      ({ at8000 with pc := 0x8009 }) [] ∧
    runs [0x90, 0x07] [] ({ at8000 with p := 0x01 })
      ({ at8000 with pc := 0x8002, p := 0x01 }) [] ∧
    runs [0x90, 0x00] [] ({ at8000 with pc := 0xFFFE })
      ({ at8000 with pc := 0x0000 }) [] := by decide

theorem test_BCS_V66 :
    runs [0xB0, 0xFE] [] ({ at8000 with p := 0x01 })
      ({ at8000 with p := 0x01 }) [] := by decide

theorem test_BEQ_V67 :
    runs [0xF0, 0x80] [] ({ at8000 with p := 0x02 })
      ({ at8000 with pc := 0x7F82, p := 0x02 }) [] := by decide

theorem test_BNE_V68_to_V69 :
    runs [0xD0, 0x7F] [] at8000
      ({ at8000 with pc := 0x8081 }) [] ∧
    runs [0xD0, 0x05] [] ({ at8000 with p := 0x02 })
      ({ at8000 with pc := 0x8002, p := 0x02 }) [] := by decide

theorem test_BMI_V70 :
    runs [0x30, 0x00] [] ({ at8000 with p := 0x80 })
      ({ at8000 with pc := 0x8002, p := 0x80 }) [] := by decide

theorem test_BPL_V71 :
    runs [0x10, 0x10] [] ({ at8000 with p := 0x80 })
      ({ at8000 with pc := 0x8002, p := 0x80 }) [] := by decide

theorem test_BVC_V72 :
    runs [0x50, 0x20] [] ({ at8000 with pc := 0xFFF0 })
      ({ at8000 with pc := 0x0012 }) [] := by decide

theorem test_BVS_V73 :
    runs [0x70, 0xF0] [] ({ at8000 with pc := 0x0004, p := 0x40 })
      ({ at8000 with pc := 0xFFF6, p := 0x40 }) [] := by decide

theorem test_JMP_V75_to_V76 :
    runs [0x4C, 0x34, 0x12] [] at8000
      ({ at8000 with pc := 0x1234 }) [] ∧
    runs [0x4C, 0x00, 0x80] [] at8000
      at8000 [] := by decide

theorem test_JMP_V77_to_V78 :
    runs [0x6C, 0x00, 0x30] [(0x3000, 0x78), (0x3001, 0x56)] at8000
      ({ at8000 with pc := 0x5678 }) [] ∧
    runs [0x6C, 0xFF, 0x12] [(0x12FF, 0x34), (0x1300, 0x56), (0x1200, 0x99)] at8000
      ({ at8000 with pc := 0x5634 }) [] := by decide

theorem test_JSR_V79_to_V81 :
    runs [0x20, 0x05, 0x80] [] at8000
      ({ at8000 with pc := 0x8005, sp := 0xFE }) [(0x0100, 0x80), (0x01FF, 0x02)] ∧
    runs [0x20, 0x00, 0x90] [] ({ at8000 with pc := 0x1234, sp := 0xFF })
      ({ at8000 with pc := 0x9000, sp := 0xFD }) [(0x01FE, 0x36), (0x01FF, 0x12)] ∧
    runs [0x20, 0x00, 0x90] [] ({ at8000 with sp := 0x01 })
      ({ at8000 with pc := 0x9000, sp := 0xFF }) [(0x0100, 0x02), (0x0101, 0x80)] := by decide

theorem test_CLC_V82 :
    runs [0x18] [] ({ at8000 with p := 0xFF })
      ({ at8000 with pc := 0x8001, p := 0xFE }) [] := by decide

theorem test_CLD_V83 :
    runs [0xD8] [] ({ at8000 with p := 0xFF })
      ({ at8000 with pc := 0x8001, p := 0xF7 }) [] := by decide

theorem test_CLI_V84 :
    runs [0x58] [] ({ at8000 with p := 0xFF })
      ({ at8000 with pc := 0x8001, p := 0xFB }) [] := by decide

theorem test_CLV_V85 :
    runs [0xB8] [] ({ at8000 with p := 0xFF })
      ({ at8000 with pc := 0x8001, p := 0xBF }) [] := by decide

theorem test_PHA_V86_to_V87 :
    runs [0x48] [] ({ at8000 with a := 0x04 })
      ({ at8000 with pc := 0x8001, a := 0x04, sp := 0xFF }) [(0x0100, 0x04)] ∧
    runs [0x48] [] ({ at8000 with a := 0x99, sp := 0x80 })
      ({ at8000 with pc := 0x8001, a := 0x99, sp := 0x7F }) [(0x0180, 0x99)] := by decide

theorem test_PHP_V88_to_V89 :
    runs [0x08] [] ({ at8000 with p := 0x03, sp := 0xFE })
      ({ at8000 with pc := 0x8001, p := 0x03, sp := 0xFD }) [(0x01FE, 0x03)] ∧
    runs [0x08] [] ({ at8000 with p := 0x00, sp := 0xFF })
      ({ at8000 with pc := 0x8001, p := 0x00, sp := 0xFE }) [] := by decide

theorem test_PLA_V90_to_V91 :
    runs [0x68] [(0x0100, 0x80)] ({ at8000 with sp := 0xFF })
      ({ at8000 with pc := 0x8001, sp := 0x00, a := 0x80, p := 0x80 }) [] ∧
    runs [0x68] [(0x0111, 0x00)] ({ at8000 with sp := 0x10, p := 0x80 })
      ({ at8000 with pc := 0x8001, sp := 0x11, p := 0x02 }) [] := by decide

theorem test_PLP_V92_to_V93 :
    runs [0x28] [(0x01FE, 0xFF)] ({ at8000 with sp := 0xFD })
      ({ at8000 with pc := 0x8001, sp := 0xFE, p := 0xFF }) [] ∧
    runs [0x28] [(0x0100, 0x30)] ({ at8000 with sp := 0xFF, p := 0xCF })
      ({ at8000 with pc := 0x8001, sp := 0x00, p := 0x30 }) [] := by decide

theorem test_BRK_V94_to_V95 :
    runs [0x00] [] at8000
      ({ at8000 with pc := 0x8001, status := .halted }) [] ∧
    runs [0x00] [] ({ at8000 with pc := 0xFFFF, p := 0x00 })
      ({ at8000 with pc := 0x0000, p := 0x00, status := .halted }) [] := by decide

theorem test_unimplemented_V96_to_V98 :
    runs [0xFF] [] ({ at8000 with a := 0x12 })
      ({ at8000 with pc := 0x8001, a := 0x12, status := .faulted 0xFF 0x8000 }) [] ∧
    runs [0x02] [] ({ at8000 with pc := 0x0200 })
      ({ at8000 with pc := 0x0201, status := .faulted 0x02 0x0200 }) [] ∧
    runs [0x85, 0x10] [] at8000
      ({ at8000 with pc := 0x8001, status := .faulted 0x85 0x8000 }) [] := by decide

/-- R282's order, worked by hand: at 0x01FE with S = 0xFF the return address is 0x0200; its high byte 0x02 goes to 0x01FF, over
JSR's own low operand byte, so the target read afterwards is 0x9002, not 0x9000. -/
theorem test_JSR_reads_after_pushing :
    runs [0x20, 0x00, 0x90] [] { at8000 with pc := 0x01FE, sp := 0xFF }
      { at8000 with pc := 0x9002, sp := 0xFD } [(0x01FF, 0x02), (0x01FE, 0x00)] := by decide

/-! ## Memory, loader, reset and run status: vectors M1 to M5, L1 to L7, R1 to R6 -/

theorem test_M1_M2_M3 :
    (poked State.reset [(0xFFFF, 0x34), (0x0000, 0x12)]).readWord 0xFFFF = 0x1234 ∧
    (State.reset.writeWord 0x0010 0xABCD).mem = [(0x0010, 0xCD), (0x0011, 0xAB)] ∧
    (State.reset.writeWord 0xFFFF 0x1234).mem = [(0x0000, 0x12), (0xFFFF, 0x34)] := by decide

theorem test_M4_M5 :
    (State.reset.push 0x11).mem = [(0x0100, 0x11)] ∧ (State.reset.push 0x11).sp = 0xFF ∧
    ((State.reset.push 0x11).push 0x22).mem = [(0x0100, 0x11), (0x01FF, 0x22)] ∧
    ((State.reset.push 0x11).push 0x22).sp = 0xFE ∧
    ((State.reset.push 0x11).push 0x22).pop.1 = 0x22 ∧ ((State.reset.push 0x11).push 0x22).pop.2.sp = 0xFF := by decide

/-- L1: BRK at 0x0000. R2: the vector of zeroed memory. -/
theorem test_L1_R2 :
    run 1 newCPU = ⟨{ State.reset with pc := 0x0001, status := .halted }, .ok⟩ ∧
    resetCPU newCPU = ⟨State.reset, .ok⟩ := by decide

theorem test_L2 :
    loadROM [] newCPU = ⟨{ State.reset with mem := [(0xFFFD, 0x80)] }, .ok⟩ := by decide

/-- L4, L5: refused, nothing written. -/
theorem test_L4_L5 :
    (loadROM (List.replicate 32769 0xEA) newCPU).state = { State.reset with status := .refused .imageDoesNotFit } ∧
    (loadROM (List.replicate 65536 0xEA) newCPU).state = { State.reset with status := .refused .imageDoesNotFit } := by
  have h : ∀ image : List Byte, 32768 < image.length → ¬ 65536 < image.length →
      loadROM image newCPU = refuse .imageDoesNotFit newCPU := fun image h1 h2 => (if_neg h2).trans (if_pos h1)
  constructor <;> rw [h _ (by rw [List.length_replicate]; omega) (by rw [List.length_replicate]; omega)] <;> rfl

/-- L6, L7: ROMTooLarge, and what is refused afterwards. -/
theorem test_L6_L7 :
    (loadROM (List.replicate 65537 0xEA) newCPU).answer = .err .romTooLarge ∧
    loadAndReset (List.replicate 65537 0xEA) newCPU = loadROM (List.replicate 65537 0xEA) newCPU ∧
    (run 1 (lostCPU [] newCPU)).answer = .refused (.hostOperation .runAfterLoadFailure) ∧
    (resetCPU (lostCPU [] newCPU)).answer = .refused (.hostOperation .resetAfterLoadFailure) := by
  have h : ∀ image : List Byte, 65536 < image.length → loadROM image newCPU = ⟨lostCPU image newCPU, .err .romTooLarge⟩ :=
    fun image h => if_pos h
  refine ⟨?_, ?_, rfl, rfl⟩
  · rw [h _ (by rw [List.length_replicate]; omega)]
  · unfold loadAndReset; rw [h _ (by rw [List.length_replicate]; omega)]

/-- A CPU with the vector at 0x8000, and the byte there. -/
def booted (v : Byte) : State := poked at8000 [(0xFFFD, 0x80), (0x8000, v)]

/-- R1: Reset clears X too. R6: the vector is read from memory as it is. -/
theorem test_R1_R6 :
    resetCPU { booted 0xA9 with pc := 0x8005, a := 0xC0, x := 0xC1, p := 0x80, status := .halted } = ⟨booted 0xA9, .ok⟩ ∧
    (resetCPU (poked at8000 [(0xFFFD, 0x90)])).state.pc = 0x9000 := by decide

/-- R3, R4: after the fault of S8. -/
theorem test_R3_R4 :
    run 1 (booted 0xFF) = ⟨{ booted 0xFF with pc := 0x8001, status := .faulted 0xFF 0x8000 },
      .err (.unimplementedOpcode 0xFF 0x8000)⟩ ∧
    (run 1 (run 1 (booted 0xFF)).state).answer = .refused (.hostOperation .runAfterFault) ∧
    resetCPU (run 1 (booted 0xFF)).state = ⟨booted 0xFF, .ok⟩ := by decide

/-- R5: Run after a halt goes on at PC. -/
theorem test_R5 :
    run 1 { booted 0xB0 with pc := 0x8003, status := .halted } =
      ⟨{ booted 0xB0 with pc := 0x8004, status := .halted }, .ok⟩ := by decide

/-! ## Witnesses: the hypotheses of every obligation that has some, met together -/

/-- A Ready CPU with LDA #$80 at 0x8000. -/
def loading : State := poked at8000 [(0x8000, 0xA9), (0x8001, 0x80)]

theorem witness_DecodeReadsOnlyEncodings : decode [0xA9, 0x12, 0xFF] = .ok (.ldaImm 0x12) [0xFF] := by decide

theorem witness_OpcodesWithoutEntry :
    decode [0xFD, 0x00] = .unimplemented 0xFD ∧ (0xFD : Byte) ∈ unimplementedOpcodes ∧ (0x02 : Byte) ∈ unimplementedOpcodes ∧
    (0xFE : Byte) ∉ unimplementedOpcodes := by decide

theorem witness_StepRunsDecodedInstruction :
    loading.status = .ready ∧
    decode [loading.readByte loading.pc, loading.readByte (loading.pc + 1), loading.readByte (loading.pc + 2)] =
      .ok (.ldaImm 0x80) [0x00] := by decide

/-- At the end of memory too: the operand bytes lie at 0x0000 and 0x0001. -/
theorem witness_StepRunsInstructionInMemory :
    ∀ s ∈ [{ loading with pc := 0x8000 }, poked { at8000 with pc := 0xFFFF } [(0xFFFF, 0xA9), (0x0000, 0x80)]],
      s.status = .ready ∧
      ∀ k (h : k < (encode (.ldaImm 0x80)).length), s.readByte (s.pc + BitVec.ofNat 16 k) = (encode (.ldaImm 0x80))[k] := by
  decide

theorem witness_UnimplementedOpcodeFaults :
    (booted 0x02).status = .ready ∧ (booted 0x02).readByte (booted 0x02).pc ∈ unimplementedOpcodes ∧
    (booted 0xFF).readByte (booted 0xFF).pc ∈ unimplementedOpcodes := by decide

/-- One state per clause. -/
theorem witness_StepStopsUnlessReady :
    { at8000 with status := .halted }.status = .halted ∧
    { at8000 with status := .faulted 0xFF 0x8000 }.status = .faulted 0xFF 0x8000 ∧
    { at8000 with status := .loadFailed }.status = .loadFailed ∧
    { at8000 with status := .refused .runAfterFault }.status = .refused .runAfterFault := ⟨rfl, rfl, rfl, rfl⟩

/-- One state per outcome. -/
theorem witness_ReadyStepHasOneOutcome :
    (booted 0x00).status = .ready ∧ (booted 0x00).readByte (booted 0x00).pc = 0x00 ∧
    (booted 0xFF).status = .ready ∧ (booted 0xFF).readByte (booted 0xFF).pc ∈ unimplementedOpcodes ∧
    (booted 0xAA).status = .ready ∧ (booted 0xAA).readByte (booted 0xAA).pc ≠ 0x00 ∧
    (booted 0xAA).readByte (booted 0xAA).pc ∉ unimplementedOpcodes := by decide

/-- Some next state of an instruction, as a witness of hypotheses that speak of it. -/
def completes (i : Instr) (s : State) : Prop := ∃ t, exec i s = .next t

/-- A load, a branch that is not taken, and BRK. -/
theorem witness_PcAfterInstruction :
    (completes (.ldaImm 0x80) at8000 ∧ branchTaken (.ldaImm 0x80) at8000.p = false) ∧
    (completes (.bcs 0x07) at8000 ∧ branchTaken (.bcs 0x07) at8000.p = false) ∧
    (completes .brk at8000 ∧ branchTaken .brk at8000.p = false) ∧
    ∀ i ∈ [Instr.ldaImm 0x80, .bcs 0x07, .brk], i.mnemonic ≠ .JMP ∧ i.mnemonic ≠ .JSR :=
  ⟨⟨⟨_, rfl⟩, rfl⟩, ⟨⟨_, rfl⟩, rfl⟩, ⟨⟨_, rfl⟩, rfl⟩, by decide⟩

/-- A step of an instruction and a step that faults, from canonical memory that is not empty. -/
theorem witness_StepKeepsCanonicalMemory :
    Canonical loading ∧ (∃ t, step loading = .next t) ∧ Canonical (booted 0xFF) ∧ ∃ t, step (booted 0xFF) = .next t :=
  ⟨rfl, ⟨_, rfl⟩, rfl, ⟨_, rfl⟩⟩

theorem witness_HostOperationsKeepCanonicalMemory :
    Canonical loading ∧ ∃ t, poke (.mem 0x8001 0x00) loading = some t := ⟨rfl, _, rfl⟩

theorem witness_EqualReadsMeanEqualMemory :
    Canonical loading ∧ Canonical { loading with a := 0x01 } ∧
    ∀ addr : Addr, loading.readByte addr = { loading with a := 0x01 }.readByte addr := ⟨rfl, rfl, fun _ => rfl⟩

/-- The canonical memory that `ByteWriteThenRead`, `WordAccessesAreLittleEndian` and `PushThenPopRestores` ask for; 0xFFFF is
the address whose word wraps, and S = 0x00 the push that wraps. -/
theorem witness_memory :
    Canonical loading ∧ (0xFFFF : Addr) + 1 = 0x0000 ∧ loading.sp = 0x00 := by decide

theorem witness_WordAccessesAreLittleEndian :
    Canonical loading ∧ ∃ b : Addr, b ≠ 0xFFFF ∧ b ≠ 0xFFFF + 1 := ⟨rfl, 0x8000, by decide⟩

/-- The bits that `NzWritesTwoBits`, `FlagWriteChangesOneBit` and `CompareSetsThreeFlags` speak of: each of their clauses has
its own, and the clauses exclude each other by `if` and `else`. -/
theorem witness_flag_bits :
    (7 < 8 ∧ 1 < 8 ∧ 0 < 8 ∧ 6 < 8) ∧
    (Flag.N, 7) ∈ [(Flag.N, 7), (.V, 6), (.B, 4), (.D, 3), (.I, 2), (.Z, 1), (.C, 0)] ∧
    (Flag.C, 0) ∈ [(Flag.N, 7), (.V, 6), (.B, 4), (.D, 3), (.I, 2), (.Z, 1), (.C, 0)] := by decide

/-- JSR with its operand bytes in memory: away from the stack, and under its own pushes. -/
theorem witness_JsrPushesThenReadsTarget :
    ∀ s ∈ [poked at8000 [(0x8000, 0x20), (0x8001, 0x05), (0x8002, 0x80)],
        poked { at8000 with pc := 0x01FE, sp := 0xFF } [(0x01FE, 0x20), (0x01FF, 0x05), (0x0200, 0x80)]],
      Canonical s ∧ s.readByte (s.pc + 1) = 0x05 ∧ s.readByte (s.pc + 2) = 0x80 := by decide

theorem witness_JsrJumpsToItsOperand :
    ∀ b : Addr, b = at8000.pc + 1 ∨ b = at8000.pc + 2 → b ≠ stackAddr at8000.sp ∧ b ≠ stackAddr (at8000.sp - 1) := by
  rintro b (rfl | rfl) <;> decide

/-- PHA then PLA with S = 0x00, where S wraps. -/
theorem witness_PhaThenPlaKeepsA :
    Canonical at8000 ∧ ∃ t, exec .pha at8000 = .next t ∧ ∃ u, exec .pla t = .next u := ⟨rfl, _, rfl, _, rfl⟩

theorem witness_FlagFrame : completes (.adcImm 0x80) at8000 ∧ completes .plp at8000 := ⟨⟨_, rfl⟩, ⟨_, rfl⟩⟩

/-- D, which stays 1 through an ADC. -/
theorem witness_OnlyPlpSetsStorageFlags :
    Instr.mnemonic (.adcImm 0x80) ≠ .PLP ∧ 3 ∈ [2, 3, 4, 5] ∧
    ∃ t, exec (.adcImm 0x80) { at8000 with p := 0x08 } = .next t ∧ t.p.getLsbD 3 = true :=
  ⟨by decide, by decide, _, rfl, by decide⟩

/-- An instruction for each clause: TAX leaves A, Y and S; PHA leaves X. -/
theorem witness_RegisterFrame :
    completes .tax at8000 ∧ Instr.mnemonic .tax ∉ [.LDA, .ADC, .AND, .EOR, .ORA, .PLA] ∧ Instr.mode .tax ≠ .acc ∧
    Instr.mnemonic .tax ∉ [.LDY, .INY, .DEY] ∧ Instr.mnemonic .tax ∉ [.PHA, .PHP, .PLA, .PLP, .JSR] ∧
    completes .pha at8000 ∧ Instr.mnemonic .pha ∉ [.LDX, .TAX, .INX, .DEX] :=
  ⟨⟨_, rfl⟩, by decide, by decide, by decide, by decide, ⟨_, rfl⟩, by decide⟩

theorem witness_NonStoringInstructionsKeepMemory :
    (completes (.cmpAbs 0x1234) at8000 ∧ storesToMemory (.cmpAbs 0x1234) = false) ∧
    completes .aslAcc at8000 ∧ storesToMemory .aslAcc = false :=
  ⟨⟨⟨_, rfl⟩, rfl⟩, ⟨_, rfl⟩, rfl⟩

/-- Each of the five mnemonics, with zero-page,X and absolute,X operands. -/
theorem witness_ReadModifyWriteFrame :
    Canonical loading ∧
    (completes (.incZpX 0xFF) loading ∧ Instr.operand (.incZpX 0xFF) = .mem (.zpx 0xFF) ∧ Instr.mnemonic (.incZpX 0xFF) = .INC) ∧
    (completes (.decAbsX 0xFFFF) loading ∧ Instr.operand (.decAbsX 0xFFFF) = .mem (.absx 0xFFFF) ∧
      Instr.mnemonic (.decAbsX 0xFFFF) = .DEC) ∧
    (completes (.aslZp 0x10) loading ∧ Instr.operand (.aslZp 0x10) = .mem (.zp 0x10) ∧ Instr.mnemonic (.aslZp 0x10) = .ASL) ∧
    (completes (.lsrAbs 0x8001) loading ∧ Instr.operand (.lsrAbs 0x8001) = .mem (.abs 0x8001) ∧
      Instr.mnemonic (.lsrAbs 0x8001) = .LSR) ∧
    (completes (.rolZpX 0xFF) loading ∧ Instr.operand (.rolZpX 0xFF) = .mem (.zpx 0xFF) ∧ Instr.mnemonic (.rolZpX 0xFF) = .ROL) :=
  ⟨rfl, ⟨⟨_, rfl⟩, rfl, rfl⟩, ⟨⟨_, rfl⟩, rfl, rfl⟩, ⟨⟨_, rfl⟩, rfl, rfl⟩, ⟨⟨_, rfl⟩, rfl, rfl⟩, ⟨⟨_, rfl⟩, rfl, rfl⟩⟩

/-- With S = 0x00, where JSR's second push wraps to 0x01FF. -/
theorem witness_StackStoreFrame :
    Canonical at8000 ∧ completes .pha at8000 ∧ completes .php at8000 ∧ completes (.jsr 0x9000) at8000 :=
  ⟨rfl, ⟨_, rfl⟩, ⟨_, rfl⟩, ⟨_, rfl⟩⟩

/-- ADC, for D; BRK, for I and B. -/
theorem witness_StorageFlagsInfluenceNothing :
    (Instr.mnemonic (.adcImm 0x01) ∉ [.PHP, .PLP, .CLD, .CLI] ∧ completes (.adcImm 0x01) at8000) ∧
    Instr.mnemonic .brk ∉ [.PHP, .PLP, .CLD, .CLI] ∧ completes .brk at8000 :=
  ⟨⟨by decide, ⟨_, rfl⟩⟩, by decide, ⟨_, rfl⟩⟩

/-- The three run statuses. -/
theorem witness_ResetClearsRegistersAndLoadsPc :
    at8000.status = .ready ∧ { at8000 with status := .halted }.status = .halted ∧
    ∃ op addr, { at8000 with status := .faulted 0xFF 0x8000 }.status = .faulted op addr := ⟨rfl, rfl, _, _, rfl⟩

/-- The empty image and the largest that fits; the vector's addresses lie in the largest, and 0x0000 in none. -/
theorem witness_LoadRomPlacesImage :
    Canonical loading ∧ Usable loading = true ∧ ([] : List Byte).length ≤ 32768 ∧
    (List.replicate 32768 (0xEA : Byte)).length ≤ 32768 ∧
    (0x8000 ≤ (0xFFFF : Addr).toNat ∧ (0xFFFF : Addr).toNat - 0x8000 < (List.replicate 32768 (0xEA : Byte)).length) ∧
    ¬ 0x8000 ≤ (0x7FFF : Addr).toNat := by
  exact ⟨rfl, rfl, by decide, by rw [List.length_replicate], ⟨by decide, by rw [List.length_replicate]; decide⟩, by decide⟩

/-- The sizes where the clauses meet: 65,536 and 65,537, and 32,769. -/
theorem witness_LoadRomSizeChecks :
    Usable at8000 = true ∧ 65536 < (List.replicate 65537 (0 : Byte)).length ∧
    (32768 < (List.replicate 65536 (0 : Byte)).length ∧ (List.replicate 65536 (0 : Byte)).length ≤ 65536) ∧
    (32768 < (List.replicate 32769 (0 : Byte)).length ∧ (List.replicate 32769 (0 : Byte)).length ≤ 65536) := by
  simp only [List.length_replicate]
  decide

theorem witness_LoadAndResetBoots : ([0xA9, 0xC0, 0xAA, 0xE8, 0x00] : List Byte).length ≤ 32768 := by decide

theorem witness_RunEndsWellOnlyAtBrk : ∃ t, run 2 loading = ⟨t, .ok⟩ := ⟨_, rfl⟩

theorem witness_RunEndsInErrorOnlyAtUnimplementedOpcode :
    ∃ t, run 1 (booted 0xFF) = ⟨t, .err (.unimplementedOpcode 0xFF 0x8000)⟩ := ⟨_, rfl⟩

theorem witness_LargerBudgetChangesNoFinishedRun : (run 2 loading).answer ≠ .budgetSpent := by decide

/-- One state per clause. -/
theorem witness_RefusalsAndRunAgain :
    { at8000 with status := .faulted 0xFF 0x8000 }.status = .faulted 0xFF 0x8000 ∧
    { at8000 with status := .loadFailed }.status = .loadFailed ∧
    { at8000 with status := .refused .imageDoesNotFit }.status = .refused .imageDoesNotFit ∧
    { at8000 with status := .halted }.status = .halted := ⟨rfl, rfl, rfl, rfl⟩

theorem witness_PokeSetsOneThing :
    at8000.status = .ready ∧ { at8000 with status := .halted }.status ≠ .ready := by decide

end Sys2Proof.Tests
end

/-! PROOFS. The canonical form of memory (log entry 4) under a Step and under every host operation (00_scope.md R5). -/

namespace Sys2Proof.Machine

/-! ## A Step -/

/-- A Step keeps the canonical form: it ran a handler, or raised UnimplementedOpcode, which writes no memory. -/
theorem step_keeps_canonical {s t : State} (hs : Canonical s) (h : step s = .next t) : Canonical t := by
  obtain ⟨-, ⟨i, -, hi⟩ | ⟨-, rfl⟩⟩ := step_next h
  · rw [exec_next hi, Canonical, finish_mem]
    exact handler_wf i.mnemonic i.operand (s.advance 1) hs
  · exact hs

/-! ## Reset -/

/-- Reset writes no memory, and neither does its refusal. -/
@[simp] theorem resetCPU_mem (s : State) : (resetCPU s).state.mem = s.mem := by
  unfold resetCPU
  cases s.status <;> rfl

/-! ## LoadROM and LoadAndReset -/

/-- The lost memory of a failed load is a run of writes onto zeroed memory, whatever the free value is (log entry 3). -/
theorem lostCPU_canonical (image : List Byte) (s : State) : Canonical (lostCPU image s) :=
  Memory.foldl_write_wf _ Memory.reset_wf

/-- Each branch of the size check leaves a canonical memory. -/
theorem loadImage_keeps_canonical {s : State} (hs : Canonical s) (image : List Byte) :
    Canonical (loadImage image s).state := by
  unfold loadImage
  split
  · exact lostCPU_canonical image s
  · split
    · exact hs
    · exact State.writeWord_wf (State.copy_wf hs ..) ..

theorem loadROM_keeps_canonical {s : State} (hs : Canonical s) (image : List Byte) :
    Canonical (loadROM image s).state := by
  have hload : Canonical (loadImage image s).state := loadImage_keeps_canonical hs image
  unfold loadROM
  cases s.status with
  | ready | halted | faulted => exact hload
  | loadFailed | refused => exact hs

/-- LoadAndReset leaves the memory that LoadROM left. -/
@[simp] theorem loadAndReset_mem (image : List Byte) (s : State) :
    (loadAndReset image s).state.mem = (loadROM image s).state.mem := by
  unfold loadAndReset
  cases h : (loadROM image s).answer <;> simp [h]

/-! ## Run -/

/-- The loop stops in the state it reached by Steps, with at most the run status changed. -/
theorem runLoop_keeps_canonical {s : State} (hs : Canonical s) (n : Nat) : Canonical (runLoop n s).state := by
  induction n generalizing s with
  | zero => exact hs
  | succ n ih =>
    unfold runLoop
    cases hstep : step s with
    | next t =>
      have ht : Canonical t := step_keeps_canonical hs hstep
      dsimp only
      cases t.status with
      | ready => exact ih ht
      | halted | faulted | loadFailed | refused => exact ht
    | fault | refused => exact hs

theorem run_keeps_canonical {s : State} (hs : Canonical s) (n : Nat) : Canonical (run n s).state := by
  have hloop : Canonical (runLoop n (s.setStatus .ready)).state :=
    runLoop_keeps_canonical (s := s.setStatus .ready) hs n
  unfold run
  cases s.status with
  | ready | halted => exact hloop
  | faulted | loadFailed | refused => exact hs

/-! ## Poke -/

/-- Only a Poke of a memory byte writes memory. -/
theorem State.put_keeps_canonical {s : State} (hs : Canonical s) (g : PokeTarget) : Canonical (s.put g) := by
  cases g with
  | mem addr v => exact State.writeByte_wf hs addr v
  | pc | sp | a | x | y | p => exact hs

/-- A Poke with an effect is a `put` on a Ready CPU (R377, log entry 8). -/
theorem poke_eq_some {g : PokeTarget} {s t : State} : poke g s = some t ↔ s.status = .ready ∧ s.put g = t := by
  unfold poke
  cases s.status <;> simp

/-! ## Every host operation -/

/-- Settles O15: one lemma per operation, each from the memory laws and the law of a Step. -/
theorem hostOperationsKeepCanonicalMemory : Obligations.HostOperationsKeepCanonicalMemory := by
  unfold Obligations.HostOperationsKeepCanonicalMemory
  intro s image n g hs
  have hload : Canonical (loadROM image s).state := loadROM_keeps_canonical hs image
  refine ⟨hload, ?reset, ?loadAndReset, run_keeps_canonical hs n, ?poke⟩
  case reset => rwa [Canonical, resetCPU_mem]
  case loadAndReset => rwa [Canonical, loadAndReset_mem]
  case poke =>
    intro t ht
    obtain ⟨-, rfl⟩ := poke_eq_some.1 ht
    exact State.put_keeps_canonical hs g

end Sys2Proof.Machine

/-! PROOFS. The state (10_state.md): the canonical form of memory at reset and under a Step, that reads decide a canonical
memory, which registers and flags an instruction leaves alone, and that bits 5 to 2 of `P` influence nothing. -/

namespace Sys2Proof.Machine

/-! ## The canonical form of memory -/

/-- Settles O13. -/
theorem resetIsCanonical : Obligations.ResetIsCanonical := Memory.reset_wf

/-- Settles O14: a Step runs a handler, and every handler keeps the form, or it raises UnimplementedOpcode, which writes no
memory. -/
theorem stepKeepsCanonicalMemory : Obligations.StepKeepsCanonicalMemory := by
  unfold Obligations.StepKeepsCanonicalMemory
  intro s t hs h
  exact step_keeps_canonical hs h

/-! ## Reads decide a canonical memory -/

/-- The first listed address is not below where another canonical memory with the same reads starts: below that the other
reads as unlisted, and no listed byte is that. -/
theorem Memory.start_le_first {lo lo' b : Nat} {w : Byte} {m m' : Memory}
    (h : Memory.wfFrom lo ((b, w) :: m) = true) (h' : Memory.wfFrom lo' m' = true)
    (reads : ∀ n < Config.memorySize, Memory.read ((b, w) :: m) n = Memory.read m' n) : lo' ≤ b := by
  obtain ⟨-, hb, hw, -⟩ := (Memory.wfFrom_cons ..).1 h
  by_contra lt
  have hfirst : w = Memory.read m' b := by simpa [Memory.read] using reads b hb
  exact hw (hfirst.trans (Memory.read_below h' (by omega)))

/-- Past a common first entry, canonical memories with the same reads still have the same reads. -/
theorem Memory.read_tail {b : Nat} {w : Byte} {m m' : Memory} (h : Memory.wfFrom (b + 1) m = true)
    (h' : Memory.wfFrom (b + 1) m' = true) {n : Nat}
    (read : Memory.read ((b, w) :: m) n = Memory.read ((b, w) :: m') n) : Memory.read m n = Memory.read m' n := by
  by_cases e : n = b
  · rw [Memory.read_below h (by omega), Memory.read_below h' (by omega)]
  · simpa [Memory.read, e] using read

/-- Canonical memories that read alike inside memory are the same list. -/
theorem Memory.eq_of_read_eq {lo : Nat} {m m' : Memory} (h : Memory.wfFrom lo m = true) (h' : Memory.wfFrom lo m' = true)
    (reads : ∀ n < Config.memorySize, Memory.read m n = Memory.read m' n) : m = m' := by
  have reads' : ∀ n < Config.memorySize, Memory.read m' n = Memory.read m n := fun n hn => (reads n hn).symm
  induction m generalizing lo m' with
  | nil =>
    cases m' with
    | nil => rfl
    | cons c m' => exact absurd (Memory.start_le_first h' (Memory.wfFrom_nil (c.1 + 1)) reads') (by omega)
  | cons c m ih =>
    obtain ⟨b, w⟩ := c
    cases m' with
    | nil => exact absurd (Memory.start_le_first h (Memory.wfFrom_nil (b + 1)) reads) (by omega)
    | cons c' m' =>
      obtain ⟨b', w'⟩ := c'
      obtain ⟨-, hb, hw, hm⟩ := (Memory.wfFrom_cons ..).1 h
      obtain ⟨-, hb', hw', hm'⟩ := (Memory.wfFrom_cons ..).1 h'
      have le : b' ≤ b := Memory.start_le_first h ((Memory.wfFrom_cons ..).2 ⟨le_rfl, hb', hw', hm'⟩) reads
      have ge : b ≤ b' := Memory.start_le_first h' ((Memory.wfFrom_cons ..).2 ⟨le_rfl, hb, hw, hm⟩) reads'
      obtain rfl : b = b' := le_antisymm ge le
      obtain rfl : w = w' := by simpa [Memory.read] using reads b hb
      have tails : ∀ n < Config.memorySize, Memory.read m n = Memory.read m' n :=
        fun n hn => Memory.read_tail hm hm' (reads n hn)
      rw [ih hm hm' tails fun n hn => (tails n hn).symm]

/-- Settles O16: by induction on the two lists, whose first entries agree. -/
theorem equalReadsMeanEqualMemory : Obligations.EqualReadsMeanEqualMemory := by
  unfold Obligations.EqualReadsMeanEqualMemory
  intro s t hs ht reads
  refine Memory.eq_of_read_eq hs ht fun n hn => ?_
  have hn' : (BitVec.ofNat 16 n).toNat = n := Nat.mod_eq_of_lt hn
  simpa only [State.readByte, hn'] using reads (BitVec.ofNat 16 n)

/-! ## What the shared parts of handlers leave alone

A branch writes `PC` only (R260), and storing a shift's result writes `A` or memory only (R220). -/

@[simp] theorem branch_a (cond : Bool) (d : Byte) (s : State) : (branch cond d s).1.a = s.a := by cases cond <;> rfl
@[simp] theorem branch_x (cond : Bool) (d : Byte) (s : State) : (branch cond d s).1.x = s.x := by cases cond <;> rfl
@[simp] theorem branch_y (cond : Bool) (d : Byte) (s : State) : (branch cond d s).1.y = s.y := by cases cond <;> rfl
@[simp] theorem branch_sp (cond : Bool) (d : Byte) (s : State) : (branch cond d s).1.sp = s.sp := by cases cond <;> rfl
@[simp] theorem branch_p (cond : Bool) (d : Byte) (s : State) : (branch cond d s).1.p = s.p := by cases cond <;> rfl

@[simp] theorem Target.store_x (o : Target) (r : Byte) (s : State) : (o.store r s).x = s.x := by cases o <;> rfl
@[simp] theorem Target.store_y (o : Target) (r : Byte) (s : State) : (o.store r s).y = s.y := by cases o <;> rfl
@[simp] theorem Target.store_sp (o : Target) (r : Byte) (s : State) : (o.store r s).sp = s.sp := by cases o <;> rfl
@[simp] theorem Target.store_p (o : Target) (r : Byte) (s : State) : (o.store r s).p = s.p := by cases o <;> rfl

/-- A result that is stored to memory leaves `A` alone. -/
theorem Target.store_a {o : Target} (ho : o ≠ .acc) (r : Byte) (s : State) : (o.store r s).a = s.a := by
  cases o with
  | acc => exact absurd rfl ho
  | mem m => rfl

/-! ## Registers (R21, R22, R24) -/

/-- The mode of an instruction is one that its mnemonic has. -/
theorem mode_mem_modes (i : Instr) : i.mode ∈ i.mnemonic.modes := by
  rw [← List.contains_iff_mem]
  cases i <;> rfl

/-- A shift in another mode than the accumulator's has its target in memory. -/
theorem target_ne_acc {i : Instr} (hi : i.mnemonic ∈ [.ASL, .LSR, .ROL]) (hmode : i.mode ≠ .acc) :
    Target.ofOperand i.operand ≠ .acc := by
  have hmem : i.operand.mode ∈ [Mode.acc, .zp, .zpx, .abs, .absx] := by
    have h : i.mode ∈ i.mnemonic.modes := mode_mem_modes i
    simp only [List.mem_cons, List.not_mem_nil, or_false] at hi
    obtain hi | hi | hi := hi <;> rwa [hi] at h
  change i.operand.mode ≠ .acc at hmode
  cases ho : i.operand with
  | mem m => simp [Target.ofOperand]
  | acc => exact absurd (congrArg Operand.mode ho) hmode
  | none | imm | rel => simp [ho, Operand.mode] at hmem

/-- `A` after a handler. A shift leaves it alone when its target is in memory. -/
theorem handler_a {m : Mnemonic} (o : Operand) (s : State) (hm : m ∉ [.LDA, .ADC, .AND, .EOR, .ORA, .PLA])
    (ho : m ∈ [.ASL, .LSR, .ROL] → Target.ofOperand o ≠ .acc) : (handlerOf m o s).1.a = s.a := by
  cases m with
  | LDA | ADC | AND | EOR | ORA | PLA => simp at hm
  | ASL | LSR | ROL => exact Target.store_a (ho (by decide)) ..
  | BCC | BCS | BEQ | BNE | BMI | BPL | BVC | BVS => exact branch_a ..
  | _ => rfl

/-- `X` after a handler. -/
theorem handler_x {m : Mnemonic} (o : Operand) (s : State) (hm : m ∉ [.LDX, .TAX, .INX, .DEX]) :
    (handlerOf m o s).1.x = s.x := by
  cases m with
  | LDX | TAX | INX | DEX => simp at hm
  | ASL | LSR | ROL => exact Target.store_x ..
  | BCC | BCS | BEQ | BNE | BMI | BPL | BVC | BVS => exact branch_x ..
  | _ => rfl

/-- `Y` after a handler. -/
theorem handler_y {m : Mnemonic} (o : Operand) (s : State) (hm : m ∉ [.LDY, .INY, .DEY]) :
    (handlerOf m o s).1.y = s.y := by
  cases m with
  | LDY | INY | DEY => simp at hm
  | ASL | LSR | ROL => exact Target.store_y ..
  | BCC | BCS | BEQ | BNE | BMI | BPL | BVC | BVS => exact branch_y ..
  | _ => rfl

/-- `S` after a handler. -/
theorem handler_sp {m : Mnemonic} (o : Operand) (s : State) (hm : m ∉ [.PHA, .PHP, .PLA, .PLP, .JSR]) :
    (handlerOf m o s).1.sp = s.sp := by
  cases m with
  | PHA | PHP | PLA | PLP | JSR => simp at hm
  | ASL | LSR | ROL => exact Target.store_sp ..
  | BCC | BCS | BEQ | BNE | BMI | BPL | BVC | BVS => exact branch_sp ..
  | _ => rfl

/-- Settles O46: one lemma per register over the handlers; the loop around a handler writes none of the four. -/
theorem registerFrame : Obligations.RegisterFrame := by
  unfold Obligations.RegisterFrame
  intro i s t h
  rw [exec_next h, finish_a, finish_x, finish_y, finish_sp]
  exact ⟨fun hm hmode => handler_a _ _ hm fun hi => target_ne_acc hi hmode, handler_x _ _, handler_y _ _, handler_sp _ _⟩

/-! ## Flags (R26) -/

/-- `NZ` leaves the bits outside N and Z alone (R130). -/
theorem nz_and_not (v p m : Byte) (hN : m &&& Flag.N.mask = 0) (hZ : m &&& Flag.Z.mask = 0) : nz v p &&& m = p &&& m :=
  (putFlag_and_not .Z _ _ m hZ).trans (putFlag_and_not .N _ p m hN)

/-- Writing C and then N and Z leaves the other bits alone: a shift and a comparison do (R220, R180). -/
theorem nz_carry_and_not (v p m : Byte) (c : Bool) (hN : m &&& Flag.N.mask = 0) (hZ : m &&& Flag.Z.mask = 0)
    (hC : m &&& Flag.C.mask = 0) : nz v (putFlag .C c p) &&& m = p &&& m :=
  (nz_and_not v _ m hN hZ).trans (putFlag_and_not .C c p m hC)

/-- A handler writes no bit of `P` but its mnemonic's. -/
theorem handler_p_frame (m : Mnemonic) (o : Operand) (s : State) :
    (handlerOf m o s).1.p &&& ~~~flagsWritten m = s.p &&& ~~~flagsWritten m := by
  cases m with
  | LDA | LDX | LDY | TAX | AND | EOR | ORA | INX | INY | DEX | DEY | INC | DEC | PLA =>
    exact nz_and_not _ s.p _ (by decide) (by decide)
  | CMP | CPX | CPY => exact nz_carry_and_not _ s.p _ _ (by decide) (by decide) (by decide)
  | ASL | LSR | ROL =>
    rw [← Target.store_p (Target.ofOperand o) _ s]
    exact nz_carry_and_not _ _ _ _ (by decide) (by decide) (by decide)
  | ADC =>
    exact (nz_carry_and_not _ _ _ _ (by decide) (by decide) (by decide)).trans
      (putFlag_and_not .V _ s.p _ (by decide))
  | BIT =>
    exact (putFlag_and_not .Z _ _ _ (by decide)).trans
      ((putFlag_and_not .V _ _ _ (by decide)).trans (putFlag_and_not .N _ s.p _ (by decide)))
  | CLC => exact putFlag_and_not .C false s.p _ (by decide)
  | CLD => exact putFlag_and_not .D false s.p _ (by decide)
  | CLI => exact putFlag_and_not .I false s.p _ (by decide)
  | CLV => exact putFlag_and_not .V false s.p _ (by decide)
  | PLP => simp [flagsWritten]
  | BCC | BCS | BEQ | BNE | BMI | BPL | BVC | BVS => exact congrArg (· &&& _) (branch_p ..)
  | JMP | JSR | PHA | PHP | BRK => rfl

/-- Settles O44: the frame of each handler's flag writes. -/
theorem flagFrame : Obligations.FlagFrame := by
  unfold Obligations.FlagFrame
  intro i s t h
  rw [exec_next h, finish_p]
  exact handler_p_frame i.mnemonic i.operand (s.advance 1)

/-! ## Bits 5, 4, 3 and 2 of `P` only fall (R26, R307) -/

/-- Of these bits only CLD's D, CLI's I and those of PLP are written at all. -/
theorem flagsWritten_storage {m : Mnemonic} (hm : m ∉ [.CLD, .CLI, .PLP]) {k : Nat} (hk : k ∈ [2, 3, 4, 5]) :
    (flagsWritten m).getLsbD k = false := by
  revert k
  cases m with
  | CLD | CLI | PLP => simp at hm
  | _ => decide

/-- A bit outside a mask is equal in bytes that agree outside the mask. -/
theorem getLsbD_eq_of_and_not {p p' m : Byte} (h : p &&& ~~~m = p' &&& ~~~m) {k : Nat} (hk : k < 8)
    (hm : m.getLsbD k = false) : p.getLsbD k = p'.getLsbD k := by
  have hbit := congrArg (·.getLsbD k) h
  simpa only [BitVec.getLsbD_and, BitVec.getLsbD_not, hk, hm, decide_true, Bool.not_false, Bool.and_true] using hbit

/-- A bit that is 1 after a flag was cleared was 1 before. -/
theorem getLsbD_of_putFlag_false {f : Flag} {p : Byte} {k : Nat} (hk : k < 8)
    (h : (putFlag f false p).getLsbD k = true) : p.getLsbD k = true := by
  rw [putFlag_getLsbD f false p k hk] at h
  split at h
  · cases h
  · exact h

/-- A handler other than PLP's sets none of the bits 5, 4, 3 and 2. -/
theorem handler_storage_bit {m : Mnemonic} {o : Operand} {s : State} {k : Nat} (hm : m ≠ .PLP) (hk : k ∈ [2, 3, 4, 5])
    (h : (handlerOf m o s).1.p.getLsbD k = true) : s.p.getLsbD k = true := by
  have hk8 : k < 8 := (by decide : ∀ k ∈ [2, 3, 4, 5], k < 8) k hk
  by_cases hclear : m = .CLD ∨ m = .CLI
  · obtain rfl | rfl := hclear
    · exact getLsbD_of_putFlag_false (f := .D) hk8 h
    · exact getLsbD_of_putFlag_false (f := .I) hk8 h
  · have hunwritten : (flagsWritten m).getLsbD k = false := flagsWritten_storage (by simpa [hm] using hclear) hk
    rwa [← getLsbD_eq_of_and_not (handler_p_frame m o s) hk8 hunwritten]

/-- Settles O45: CLD and CLI clear one of these bits each, and no other instruction but PLP writes one. -/
theorem onlyPlpSetsStorageFlags : Obligations.OnlyPlpSetsStorageFlags := by
  unfold Obligations.OnlyPlpSetsStorageFlags
  intro i s t k h hplp hk hbit
  rw [exec_next h, finish_p] at hbit
  exact handler_storage_bit (s := s.advance 1) hplp hk hbit

/-! ## Bits 5, 4, 3 and 2 of `P` influence nothing (R27 to R30) -/

/-- The bits of `withStorageBits`. -/
theorem withStorageBits_getLsbD (p q : Byte) {k : Nat} (hk : k < 8) :
    (withStorageBits p q).getLsbD k = if k ∈ [2, 3, 4, 5] then q.getLsbD k else p.getLsbD k := by
  unfold withStorageBits
  interval_cases k <;> simp

/-- A flag outside these bits tests the same. -/
theorem testFlag_withStorageBits {f : Flag} (hf : f.bit ∉ [2, 3, 4, 5]) (p q : Byte) :
    testFlag f (withStorageBits p q) = testFlag f p := by
  rw [testFlag_eq_bit, testFlag_eq_bit, withStorageBits_getLsbD p q f.bit_lt, if_neg hf]

/-- Writing a flag outside these bits does not touch them. -/
theorem putFlag_withStorageBits {f : Flag} (hf : f.bit ∉ [2, 3, 4, 5]) (b : Bool) (p q : Byte) :
    putFlag f b (withStorageBits p q) = withStorageBits (putFlag f b p) q := by
  refine BitVec.eq_of_getLsbD_eq fun k hk => ?_
  rw [putFlag_getLsbD f b _ k hk, withStorageBits_getLsbD p q hk, withStorageBits_getLsbD _ q hk, putFlag_getLsbD f b p k hk]
  by_cases e : k = f.bit
  · rw [if_pos e, if_pos e, if_neg (e ▸ hf)]
  · rw [if_neg e, if_neg e]

/-- `s` with bits 5, 4, 3 and 2 of `P` taken from `q`. -/
def State.withStorage (s : State) (q : Byte) : State := s.setP (withStorageBits s.p q)

section
variable (s : State) (q : Byte)

/-! ### What reads the same -/

@[simp] theorem State.withStorage_a : (s.withStorage q).a = s.a := rfl
@[simp] theorem State.withStorage_x : (s.withStorage q).x = s.x := rfl
@[simp] theorem State.withStorage_y : (s.withStorage q).y = s.y := rfl
@[simp] theorem State.withStorage_p : (s.withStorage q).p = withStorageBits s.p q := rfl
@[simp] theorem State.withStorage_readByte (addr : Addr) : (s.withStorage q).readByte addr = s.readByte addr := rfl

theorem State.withStorage_flag {f : Flag} (hf : f.bit ∉ [2, 3, 4, 5]) : (s.withStorage q).flag f = s.flag f :=
  testFlag_withStorageBits hf s.p q

@[simp] theorem ea_withStorage (m : Place) : ea m (s.withStorage q) = ea m s := ea_congr m rfl rfl rfl

@[simp] theorem Source.load_withStorage (o : Source) : o.load (s.withStorage q) = o.load s := o.load_congr rfl rfl rfl

@[simp] theorem Target.load_withStorage (o : Target) : o.load (s.withStorage q) = o.load s := by
  cases o <;> simp [Target.load]

/-! ### What writes the same -/

@[simp] theorem State.withStorage_setA (v : Byte) : (s.withStorage q).setA v = (s.setA v).withStorage q := rfl
@[simp] theorem State.withStorage_setX (v : Byte) : (s.withStorage q).setX v = (s.setX v).withStorage q := rfl
@[simp] theorem State.withStorage_setY (v : Byte) : (s.withStorage q).setY v = (s.setY v).withStorage q := rfl
@[simp] theorem State.withStorage_setPc (v : Addr) : (s.withStorage q).setPc v = (s.setPc v).withStorage q := rfl
@[simp] theorem State.withStorage_writeByte (addr : Addr) (v : Byte) :
    (s.withStorage q).writeByte addr v = (s.writeByte addr v).withStorage q := rfl
@[simp] theorem State.withStorage_pop : (s.withStorage q).pop = (s.pop.1, s.pop.2.withStorage q) := rfl

theorem State.withStorage_setFlag {f : Flag} (hf : f.bit ∉ [2, 3, 4, 5]) (b : Bool) :
    (s.withStorage q).setFlag f b = (s.setFlag f b).withStorage q :=
  congrArg s.setP (putFlag_withStorageBits hf b s.p q)

@[simp] theorem State.withStorage_setNZ (v : Byte) : (s.withStorage q).setNZ v = (s.setNZ v).withStorage q :=
  calc (s.withStorage q).setNZ v
      = ((s.withStorage q).setFlag .N (v.getLsbD 7)).setFlag .Z (v == 0) := rfl
    _ = ((s.setFlag .N (v.getLsbD 7)).setFlag .Z (v == 0)).withStorage q := by
      rw [State.withStorage_setFlag _ _ (by decide), State.withStorage_setFlag _ _ (by decide)]
    _ = (s.setNZ v).withStorage q := rfl

@[simp] theorem Target.store_withStorage (o : Target) (r : Byte) :
    o.store r (s.withStorage q) = (o.store r s).withStorage q := by
  cases o <;> simp [Target.store]

/-! ### The shared parts of handlers -/

theorem compareWith_withStorage (r : Byte) (o : Source) :
    compareWith r o (s.withStorage q) = ((compareWith r o s).1.withStorage q, (compareWith r o s).2) := by
  change (((s.withStorage q).setFlag .C _).setNZ _, Disposition.advance) = _
  rw [State.withStorage_setFlag _ _ (by decide), State.withStorage_setNZ, Source.load_withStorage]
  rfl

theorem shiftResult_withStorage (o : Target) (r : Byte) (c : Bool) :
    shiftResult o r c (s.withStorage q) = ((shiftResult o r c s).1.withStorage q, (shiftResult o r c s).2) := by
  simp [shiftResult, State.withStorage_setFlag _ _ (show Flag.C.bit ∉ [2, 3, 4, 5] by decide)]

theorem branch_withStorage (cond : Bool) (d : Byte) :
    branch cond d (s.withStorage q) = ((branch cond d s).1.withStorage q, (branch cond d s).2) := by
  cases cond <;> rfl

theorem finish_withStorage (n : Nat) (td : State × Disposition) :
    finish n (td.1.withStorage q, td.2) = (finish n td).withStorage q := by
  obtain ⟨t, d⟩ := td
  cases d <;> rfl

end

/-! ### Every handler -/

/-- A handler that neither reads nor writes these bits does the same whatever they hold, and leaves them as they were. -/
theorem handler_withStorage {m : Mnemonic} (o : Operand) (s : State) (q : Byte) (hm : m ∉ [.PHP, .PLP, .CLD, .CLI]) :
    handlerOf m o (s.withStorage q) = ((handlerOf m o s).1.withStorage q, (handlerOf m o s).2) := by
  have hN : Flag.N.bit ∉ [2, 3, 4, 5] := by decide
  have hV : Flag.V.bit ∉ [2, 3, 4, 5] := by decide
  have hZ : Flag.Z.bit ∉ [2, 3, 4, 5] := by decide
  have hC : Flag.C.bit ∉ [2, 3, 4, 5] := by decide
  cases m with
  | PHP | PLP | CLD | CLI => simp at hm
  | LDA | LDX | LDY | TAX => simp [handlerOf, lda, ldx, ldy, tax]
  | AND | EOR | ORA => simp [handlerOf, andA, eorA, oraA]
  | INX | INY | DEX | DEY => simp [handlerOf, inx, iny, dex, dey]
  | INC | DEC => simp [handlerOf, incMem, decMem]
  | ADC =>
    simp [handlerOf, adc, State.withStorage_flag _ _ hC, State.withStorage_setFlag _ _ hV,
      State.withStorage_setFlag _ _ hC]
  | BIT =>
    simp [handlerOf, bitTest, State.withStorage_setFlag _ _ hN, State.withStorage_setFlag _ _ hV,
      State.withStorage_setFlag _ _ hZ]
  | CMP | CPX | CPY => exact compareWith_withStorage ..
  | ASL | LSR => simp [handlerOf, asl, lsr, shiftResult_withStorage]
  | ROL => simp [handlerOf, rol, State.withStorage_flag _ _ hC, shiftResult_withStorage]
  | BCC | BCS => simp [handlerOf, branchCC, branchCS, State.withStorage_flag _ _ hC, branch_withStorage]
  | BEQ | BNE => simp [handlerOf, branchEQ, branchNE, State.withStorage_flag _ _ hZ, branch_withStorage]
  | BMI | BPL => simp [handlerOf, branchMI, branchPL, State.withStorage_flag _ _ hN, branch_withStorage]
  | BVC | BVS => simp [handlerOf, branchVC, branchVS, State.withStorage_flag _ _ hV, branch_withStorage]
  | JMP => simp [handlerOf, jmp]
  | CLC => simp [handlerOf, clc, State.withStorage_setFlag _ _ hC]
  | CLV => simp [handlerOf, clv, State.withStorage_setFlag _ _ hV]
  | PLA => simp [handlerOf, pla]
  | JSR | PHA | BRK => rfl

/-- Settles O50: every handler but the four commutes with the change of these bits, and so does the loop around it. -/
theorem storageFlagsInfluenceNothing : Obligations.StorageFlagsInfluenceNothing := by
  unfold Obligations.StorageFlagsInfluenceNothing
  intro i s t q hm h
  obtain rfl := exec_next h
  change exec i (s.withStorage q) = .next (State.withStorage _ q)
  have hadvance : (s.withStorage q).advance 1 = (s.advance 1).withStorage q := rfl
  rw [exec_eq, runHandler_eq, hadvance, handler_withStorage _ _ _ hm, finish_withStorage]

end Sys2Proof.Machine

/-! PROOFS. Memory and the stack (20_memory.md): byte and word accesses, Push and Pop, and which instructions store what. -/

namespace Sys2Proof.Machine

/-! ## Byte accesses (R50) -/

/-- Settles O17: the law of a read after a write; a write changes no other field. -/
theorem byteWriteThenRead : Obligations.ByteWriteThenRead := by
  unfold Obligations.ByteWriteThenRead
  intro s addr v hs
  exact ⟨fun b => State.readByte_writeByte hs addr b v, rfl⟩

/-! ## Word accesses (R51, R52) -/

theorem lowByte_toNat (w : Addr) : (lowByte w).toNat = w.toNat % 256 := BitVec.toNat_setWidth 8 w

theorem highByte_toNat (w : Addr) : (highByte w).toNat = w.toNat / 256 := by
  have hw : w.toNat < 65536 := w.isLt
  rw [highByte, BitVec.toNat_setWidth, BitVec.toNat_ushiftRight, Nat.shiftRight_eq_div_pow]
  omega

/-- The two bytes of a word are never the same byte, also where the second address wraps (D5). -/
theorem ne_next_addr (addr : Addr) : addr ≠ addr + 1 :=
  fun h => absurd (left_eq_add.1 h) (by decide)

/-- A byte read after a word write (R52). -/
theorem State.readByte_writeWord {s : State} (h : Memory.wf s.mem = true) (addr w b : Addr) :
    (s.writeWord addr w).readByte b =
      if b = addr + 1 then highByte w else if b = addr then lowByte w else s.readByte b := by
  rw [State.writeWord, State.readByte_writeByte (State.writeByte_wf h ..), State.readByte_writeByte h]

/-- Settles O18: the word of two bytes as a number, and each byte read after a word write. -/
theorem wordAccessesAreLittleEndian : Obligations.WordAccessesAreLittleEndian := by
  unfold Obligations.WordAccessesAreLittleEndian
  intro s addr v hs
  refine ⟨State.readWord_toNat s addr, ?low, ?high, fun b hlow hhigh => ?other⟩
  case low => rw [State.readByte_writeWord hs, if_neg (ne_next_addr addr), if_pos rfl, lowByte_toNat]
  case high => rw [State.readByte_writeWord hs, if_pos rfl, highByte_toNat]
  case other => rw [State.readByte_writeWord hs, if_neg hhigh, if_neg hlow]

/-! ## The stack (R54, R55) -/

/-- The stack byte that `S = v` designates lies in page 1 (R56). -/
theorem eq_stackAddr_iff {b : Addr} {v : Byte} : b = stackAddr v ↔ b.toNat = 0x0100 + v.toNat := by
  rw [← BitVec.toNat_inj, stackAddr_toNat]

/-- Pop after Push answers the pushed byte, also where `S` wraps (R55). -/
theorem State.pop_push_byte {s : State} (h : Memory.wf s.mem = true) (v : Byte) : (s.push v).pop.1 = v := by
  rw [State.pop_byte, State.push_sp, BitVec.sub_add_cancel, State.readByte_push h, if_pos rfl]

/-- Pop after Push restores `S`. -/
theorem State.pop_push_sp (s : State) (v : Byte) : (s.push v).pop.2.sp = s.sp := by
  rw [State.pop_state_sp, State.push_sp, BitVec.sub_add_cancel]

/-- Settles O19: a read after a push with the stack address as a number, and Pop of what Push left. -/
theorem pushThenPopRestores : Obligations.PushThenPopRestores := by
  unfold Obligations.PushThenPopRestores
  intro s v hs
  refine ⟨fun b => ?_, rfl, State.pop_push_byte hs v, State.pop_push_sp s v, rfl, rfl⟩
  simp only [State.readByte_push hs, eq_stackAddr_iff]

/-! ## Instructions that store nothing (R58) -/

/-- Only the accumulator operand has the accumulator mode. -/
theorem operand_eq_acc {o : Operand} (h : o.mode = .acc) : o = .acc := by
  cases o with
  | acc => rfl
  | mem m => cases m <;> cases h
  | none | imm | rel => cases h

/-- What an instruction that stores nothing is not: INC, DEC, a push or JSR, nor a shift of memory. -/
theorem not_store_of_storesToMemory_eq_false {i : Instr} (h : storesToMemory i = false) :
    i.mnemonic ∉ [.INC, .DEC, .PHA, .PHP, .JSR] ∧ (i.mnemonic ∈ [.ASL, .LSR, .ROL] → i.mode = .acc) := by
  unfold storesToMemory at h
  cases hm : i.mnemonic with
  | INC | DEC | PHA | PHP | JSR => simp [hm] at h
  | ASL | LSR | ROL => simpa [hm] using h
  | _ => exact ⟨by decide, fun hi => absurd hi (by decide)⟩

/-- A branch writes no memory (R260). -/
@[simp] theorem branch_mem (cond : Bool) (d : Byte) (s : State) : (branch cond d s).1.mem = s.mem := by cases cond <;> rfl

/-- Memory after a handler that pushes nothing and is not INC's or DEC's. A shift leaves it alone when its target is `A`. -/
theorem handler_mem {m : Mnemonic} (o : Operand) (s : State) (hm : m ∉ [.INC, .DEC, .PHA, .PHP, .JSR])
    (ho : m ∈ [.ASL, .LSR, .ROL] → o = .acc) : (handlerOf m o s).1.mem = s.mem := by
  cases m with
  | INC | DEC | PHA | PHP | JSR => simp at hm
  | ASL | LSR | ROL => obtain rfl := ho (by decide); rfl
  | BCC | BCS | BEQ | BNE | BMI | BPL | BVC | BVS => exact branch_mem ..
  | _ => rfl

/-- Settles O47: no handler of such an instruction writes memory, and neither does the loop around it. -/
theorem nonStoringInstructionsKeepMemory : Obligations.NonStoringInstructionsKeepMemory := by
  unfold Obligations.NonStoringInstructionsKeepMemory
  intro i s t h hstore
  obtain ⟨hm, hshift⟩ := not_store_of_storesToMemory_eq_false hstore
  have hmem : t.mem = s.mem := by
    rw [exec_next h, finish_mem]
    exact handler_mem i.operand (s.advance 1) hm fun hi => operand_eq_acc (hshift hi)
  exact ⟨fun addr => congrArg (Memory.read · addr.toNat) hmem, hmem⟩

/-! ## Instructions that store to the stack (R304, R305, R282) -/

theorem finish_readByte (n : Nat) (td : State × Disposition) (addr : Addr) :
    (finish n td).readByte addr = td.1.readByte addr :=
  congrArg (Memory.read · addr.toNat) (finish_mem n td)

/-- A byte read after two pushes: the second lies below the first, and wraps with `S` (R56). -/
theorem State.readByte_push_push {s : State} (h : Memory.wf s.mem = true) (v w : Byte) (b : Addr) :
    ((s.push v).push w).readByte b =
      if b = stackAddr (s.sp - 1) then w else if b = stackAddr s.sp then v else s.readByte b := by
  rw [State.readByte_push (State.push_wf h v), State.readByte_push h, State.push_sp]

/-- A byte read after JSR's handler: setting `PC` is all that follows its two pushes (R282). -/
theorem jsr_readByte {s : State} (h : Memory.wf s.mem = true) (w b : Addr) :
    (jsr w s).1.readByte b =
      if b = stackAddr (s.sp - 1) then lowByte (s.pc + 1)
        else if b = stackAddr s.sp then highByte (s.pc + 1) else s.readByte b :=
  State.readByte_push_push h (highByte (s.pc + 1)) (lowByte (s.pc + 1)) b

/-- Settles O49: PHA and PHP are one push, JSR is two; its handler's `PC + 1` is the instruction's `PC + 2`. -/
theorem stackStoreFrame : Obligations.StackStoreFrame := by
  unfold Obligations.StackStoreFrame
  intro s t w b hs
  have hs1 : Memory.wf (s.advance 1).mem = true := hs
  refine ⟨fun h => ?pha, fun h => ?php, fun h => ?jsr⟩
  case pha =>
    rw [exec_next h, finish_readByte]
    exact State.readByte_push hs1 s.a b
  case php =>
    rw [exec_next h, finish_readByte]
    exact State.readByte_push hs1 s.p b
  case jsr =>
    have hpc : s.pc + 2 = (s.advance 1).pc + 1 := (BitVec.add_assoc s.pc 1 1).symm
    rw [exec_next h, finish_readByte, hpc]
    exact jsr_readByte hs1 w b

end Sys2Proof.Machine

/-! PROOFS. The encoding (30_encoding.md): decoder and encoder undo each other, which opcode bytes have no entry, sizes,
effective addresses, and the one byte that a read-modify-write instruction writes. -/

namespace Sys2Proof.Laws.DecodeEncode

/-- The law of every instruction, from the law of each constructor in the order of the type. -/
theorem statement (i : Instr) : Statement i :=
  Instr.casesOn (motive := Statement) i
    ldaImm ldaZp ldaZpX ldaAbs ldaAbsX ldaAbsY ldaIndX ldaIndY
    ldxImm ldxZp ldxZpY ldxAbs ldxAbsY ldyImm ldyZp ldyZpX ldyAbs ldyAbsX tax
    adcImm adcZp adcZpX adcAbs adcAbsX adcAbsY adcIndX adcIndY
    cmpImm cmpZp cmpZpX cmpAbs cmpAbsX cmpAbsY cmpIndX cmpIndY
    cpxImm cpxZp cpxAbs cpyImm cpyZp cpyAbs
    andImm andZp andZpX andAbs andAbsX andAbsY andIndX andIndY
    eorImm eorZp eorZpX eorAbs eorAbsX eorAbsY eorIndX eorIndY
    oraImm oraZp oraZpX oraAbs oraAbsX oraAbsY oraIndX oraIndY bitZp bitAbs
    aslAcc aslZp aslZpX aslAbs aslAbsX lsrAcc lsrZp lsrZpX lsrAbs lsrAbsX rolAcc rolZp rolZpX rolAbs rolAbsX
    inx iny dex dey incZp incZpX incAbs incAbsX decZp decZpX decAbs decAbsX
    bcc bcs beq bne bmi bpl bvc bvs jmpAbs jmpInd jsr clc cld cli clv pha php pla plp brk

end Sys2Proof.Laws.DecodeEncode

namespace Sys2Proof

/-! ## The decoder on an encoding (R80, R81, R110) -/

/-- Settles O2: the law of the instruction's constructor, in which a word operand is put together again. -/
theorem decodeEncodeRoundTrip : Obligations.DecodeEncodeRoundTrip := by
  unfold Obligations.DecodeEncodeRoundTrip
  exact Laws.DecodeEncode.statement

/-! ## What the decoder reads (R83) -/

/-- Everything a decoded instruction can come from: the entry of the first byte, and its operand bytes. -/
theorem decode_eq_ok {bytes rest : List Byte} {i : Instr} (h : decode bytes = .ok i rest) :
    ∃ op tail r, bytes = op :: tail ∧ lookup op = some r ∧ r.layout.decode tail = .ok i rest := by
  cases bytes with
  | nil => simp at h
  | cons op tail =>
    rw [decode_cons] at h
    cases hl : lookup op with
    | none => simp [hl] at h
    | some r => exact ⟨op, tail, r, rfl, hl, by simpa [hl] using h⟩

/-- The operand bytes that an entry reads are those that the encoder writes after the entry's opcode byte. -/
theorem Row.Encodes.of_layout_decode {r : Row} {tail rest : List Byte} {i : Instr} (hr : r.Encodes)
    (h : r.layout.decode tail = .ok i rest) : r.opcode :: tail = encode i ++ rest := by
  obtain ⟨op, mnemonic, mode, layout⟩ := r
  match layout, tail, h with
  | .f1 i, rest, rfl => rw [show encode i = [op] from hr]; rfl
  | .f2 make, d :: rest, rfl => rw [show encode (make d) = _ from hr d]; rfl
  | .f3 make, lo :: hi :: rest, rfl =>
    rw [show encode (make (wordOf hi lo)) = _ from hr (wordOf hi lo), lowByte_wordOf, highByte_wordOf]
    rfl

/-- Settles O3: every entry of the opcode table agrees with the encoder. -/
theorem decodeReadsOnlyEncodings : Obligations.DecodeReadsOnlyEncodings := by
  unfold Obligations.DecodeReadsOnlyEncodings
  intro bytes rest i h
  obtain ⟨op, tail, r, rfl, hlookup, hlayout⟩ := decode_eq_ok h
  obtain rfl : r.opcode = op := lookup_opcode hlookup
  exact (opcodeTable_encodes r (lookup_mem hlookup)).of_layout_decode hlayout

/-! ## Opcode bytes without an entry (R120) -/

/-- Reading operand bytes never answers that an opcode byte has no entry. -/
theorem Layout.decode_ne_unimplemented (l : Layout) (bytes : List Byte) (op : Byte) :
    l.decode bytes ≠ .unimplemented op := by
  unfold Layout.decode
  split <;> exact nofun

/-- The decoder answers 'unimplemented' exactly when the opcode byte has no entry (R121). -/
theorem decode_eq_unimplemented_iff (op : Byte) (rest : List Byte) :
    decode (op :: rest) = .unimplemented op ↔ lookup op = none := by
  rw [decode_cons]
  cases lookup op with
  | none => simp
  | some r => simp [r.layout.decode_ne_unimplemented]

/-- An opcode byte has no entry when no row of the table holds it. -/
theorem lookup_eq_none_iff (op : Byte) : lookup op = none ↔ op ∉ opcodeTable.map Row.opcode := by
  simp [lookup, List.find?_eq_none]

/-- A list of bytes as the set of its members: bit `b` of the number is set when the list holds `b`. -/
def byteSet : List Byte → Nat
  | [] => 0
  | b :: l => 2 ^ b.toNat ||| byteSet l

theorem testBit_byteSet (l : List Byte) (b : Byte) : (byteSet l).testBit b.toNat = decide (b ∈ l) := by
  induction l with
  | nil => simp [byteSet]
  | cons c l ih => simp [byteSet, Nat.testBit_two_pow, BitVec.toNat_inj, ih, eq_comm]

theorem byteSet_append (l l' : List Byte) : byteSet (l ++ l') = byteSet l ||| byteSet l' := by
  induction l with
  | nil => simp [byteSet]
  | cons b l ih => rw [List.cons_append, byteSet, byteSet, ih, Nat.lor_assoc]

/-- R110 and R120 together list all 256 opcode bytes, and none is in both lists. The sets are evaluated row by row, as the
lists are written. -/
theorem byteSet_opcodes_xor_unimplemented :
    byteSet (opcodeTable.map Row.opcode) ^^^ byteSet unimplementedOpcodes = 2 ^ 256 - 1 := by
  simp only [opcodeTable, unimplementedOpcodes, List.map_append, byteSet_append]
  decide

theorem not_mem_opcodes_iff (op : Byte) : op ∉ opcodeTable.map Row.opcode ↔ op ∈ unimplementedOpcodes := by
  have h := congrArg (Nat.testBit · op.toNat) byteSet_opcodes_xor_unimplemented
  have hlt : op.toNat < 256 := op.isLt
  simp only [Nat.testBit_xor, testBit_byteSet, Nat.testBit_two_pow_sub_one, hlt, decide_true] at h
  by_cases hop : op ∈ unimplementedOpcodes <;> simpa [hop] using h

/-- The bytes without an entry are R120's. -/
theorem lookup_eq_none_iff_unimplemented (op : Byte) : lookup op = none ↔ op ∈ unimplementedOpcodes :=
  (lookup_eq_none_iff op).trans (not_mem_opcodes_iff op)

/-- Settles O4. -/
theorem opcodesWithoutEntry : Obligations.OpcodesWithoutEntry := by
  unfold Obligations.OpcodesWithoutEntry
  exact ⟨rfl, fun op rest => (decode_eq_unimplemented_iff op rest).trans (lookup_eq_none_iff_unimplemented op)⟩

/-! ## The opcode bytes the source shows (R111) -/

/-- A word operand in memory order (R53), after the opcode byte of an instruction that takes one. -/
theorem decode_word {make : Addr → Instr} {op : Byte}
    (hmake : ∀ w, encode (make w) = [op, lowByte w, highByte w]) (lo hi : Byte) (rest : List Byte) :
    decode (op :: lo :: hi :: rest) = .ok (make (hi ++ lo)) rest := by
  have h : decode (encode (make (wordOf hi lo)) ++ rest) = .ok (make (wordOf hi lo)) rest :=
    Laws.DecodeEncode.statement (make (wordOf hi lo)) rest
  rwa [hmake, lowByte_wordOf, highByte_wordOf, wordOf_eq_append] at h

/-- Settles O1: each is an encoding followed by `rest`, but for the last, which R120 lists. -/
theorem shownOpcodesDecode : Obligations.ShownOpcodesDecode := by
  unfold Obligations.ShownOpcodesDecode
  intro d lo hi rest
  have hFF : decode (0xFF :: rest) = .unimplemented 0xFF :=
    (decode_eq_unimplemented_iff 0xFF rest).2 ((lookup_eq_none_iff_unimplemented 0xFF).2 (by decide))
  open Laws.DecodeEncode in
  exact ⟨ldaImm d rest, tax rest, inx rest, brk rest, adcImm d rest, ldaZpX d rest, bcc d rest, bcs d rest,
    decode_word (fun _ => rfl) lo hi rest, decode_word (fun _ => rfl) lo hi rest, hFF⟩

/-! ## Sizes (R82) -/

theorem encode_length (i : Instr) : (encode i).length = i.mode.size := by cases i <;> rfl

theorem Mode.size_eq (m : Mode) : m.size = 1 + m.operandBytes := by cases m <;> rfl

/-- Settles O5. -/
theorem encodedSizeOfEachMode : Obligations.EncodedSizeOfEachMode := by
  unfold Obligations.EncodedSizeOfEachMode
  exact ⟨rfl, rfl, rfl, rfl, rfl, rfl, rfl, rfl, rfl, rfl, rfl, rfl, rfl, fun i => ⟨encode_length i, i.mode.size_eq⟩⟩

end Sys2Proof

namespace Sys2Proof.Machine

/-! ## A Step on a byte without an entry (R121, R331) -/

/-- Settles O8: a byte of R120 has no entry, so the step raises UnimplementedOpcode. -/
theorem unimplementedOpcodeFaults : Obligations.UnimplementedOpcodeFaults := by
  unfold Obligations.UnimplementedOpcodeFaults
  intro s hs hop
  exact step_of_no_entry hs ((lookup_eq_none_iff_unimplemented _).2 hop)

/-! ## Effective addresses (R91 to R100) -/

/-- The word at the address `n`, as a number; its high byte lies at the next address modulo 65536 (D5, D6). -/
def State.wordAt (s : State) (n : Nat) : Nat :=
  (s.readByte (BitVec.ofNat 16 n)).toNat + 256 * (s.readByte (BitVec.ofNat 16 ((n + 1) % 65536))).toNat

theorem State.readWord_eq_wordAt (s : State) {addr : Addr} {n : Nat} (h : addr.toNat = n) :
    (s.readWord addr).toNat = s.wordAt n := by
  have hlow : BitVec.ofNat 16 n = addr := by rw [← h, BitVec.ofNat_toNat, BitVec.setWidth_eq]
  have hhigh : BitVec.ofNat 16 ((n + 1) % 65536) = addr + 1 :=
    BitVec.eq_of_toNat_eq (by rw [← h, BitVec.toNat_ofNat, Nat.mod_mod, BitVec.toNat_add]; rfl)
  rw [State.readWord_toNat, State.wordAt, hlow, hhigh]

/-- An index added to a zero-page address wraps modulo 256. -/
theorem zext_add_toNat (d i : Byte) : (zext (d + i)).toNat = (d.toNat + i.toNat) % 256 := by
  rw [zext_toNat, BitVec.toNat_add]

/-- An index added to a 16-bit address wraps modulo 65536. -/
theorem add_zext_toNat (w : Addr) (i : Byte) : (w + zext i).toNat = (w.toNat + i.toNat) % 65536 := by
  rw [BitVec.toNat_add, zext_toNat]

/-- Settles O20: each mode's address is a byte, an indexed sum, or a word read at one of these. -/
theorem effectiveAddressOfEachMode : Obligations.EffectiveAddressOfEachMode := by
  unfold Obligations.EffectiveAddressOfEachMode
  intro s d w word
  have hindy : (ea (.indy d) s).toNat = (s.wordAt d.toNat + s.y.toNat) % 65536 := by
    rw [← s.readWord_eq_wordAt (zext_toNat d)]
    exact add_zext_toNat _ s.y
  exact ⟨rfl, rfl, zext_toNat d, zext_add_toNat d s.x, zext_add_toNat d s.y, s.readWord_eq_wordAt rfl, rfl,
    add_zext_toNat w s.x, add_zext_toNat w s.y, s.readWord_eq_wordAt rfl, s.readWord_eq_wordAt (zext_add_toNat d s.x),
    hindy⟩

theorem zext_toNat_lt (b : Byte) : (zext b).toNat < 0x100 := by
  rw [zext_toNat]
  exact b.isLt

/-- Settles O21: both addresses are bytes, extended with zeros. -/
theorem zeroPageIndexedStaysInPageZero : Obligations.ZeroPageIndexedStaysInPageZero := by
  unfold Obligations.ZeroPageIndexedStaysInPageZero
  intro s d
  exact ⟨zext_toNat_lt (d + s.x), zext_toNat_lt (d + s.y)⟩

/-! ## Read-modify-write (R103) -/

/-- The byte that INC, DEC, ASL, LSR and ROL make of `v` when the status byte is `p`; any other mnemonic leaves it. -/
def modified : Mnemonic → Byte → Byte → Byte
  | .INC, v, _ => v + 1
  | .DEC, v, _ => v - 1
  | .ASL, v, _ => v <<< 1
  | .LSR, v, _ => v >>> 1
  | .ROL, v, p => v <<< 1 ||| (p &&& 1)
  | _, v, _ => v

/-- The carry as a byte is the lowest bit of `P` (R23). -/
theorem bitByte_testFlag_C (p : Byte) : bitByte (testFlag .C p) = p &&& 1 := by
  have hbit : testFlag .C p = p.getLsbD 0 := testFlag_eq_bit .C p
  rw [hbit, show (1 : Byte) = 1#8 from rfl, BitVec.and_one_eq_setWidth_ofBool_getLsbD]
  cases p.getLsbD 0 <;> rfl

/-- A byte read after the handler of such a mnemonic: it is one write at the effective address. -/
theorem handler_modifies {m : Mnemonic} (hm : m ∈ [.INC, .DEC, .ASL, .LSR, .ROL]) (o : Place) {s : State}
    (hs : Memory.wf s.mem = true) (b : Addr) :
    (handlerOf m (.mem o) s).1.readByte b =
      if b = ea o s then modified m (s.readByte (ea o s)) s.p else s.readByte b := by
  cases m with
  | INC | DEC | ASL | LSR => exact State.readByte_writeByte hs ..
  | ROL =>
    rw [modified, ← bitByte_testFlag_C]
    exact State.readByte_writeByte hs ..
  | _ => simp at hm

/-- Settles O48: the loop around the handler leaves memory alone. -/
theorem readModifyWriteFrame : Obligations.ReadModifyWriteFrame := by
  unfold Obligations.ReadModifyWriteFrame
  intro i m s t hs h ho hm addr v
  have hread (b : Addr) : t.readByte b = if b = addr then modified i.mnemonic v s.p else s.readByte b := by
    rw [exec_next h, finish_readByte, ho]
    exact handler_modifies (s := s.advance 1) hm m hs b
  have hresult : t.readByte addr = modified i.mnemonic v s.p := (hread addr).trans (if_pos rfl)
  refine ⟨fun b hb => (hread b).trans (if_neg hb), fun hi => ?_, fun hi => ?_, fun hi => ?_, fun hi => ?_, fun hi => ?_⟩
  all_goals rwa [hi] at hresult

end Sys2Proof.Machine

/-! PROOFS. The execution loop (40_execution_loop.md): what one Step runs and how it ends, where `PC` is after an instruction,
that a finished Run does not depend on its budget, and the flag engine as bits and integer arithmetic. -/

namespace Sys2Proof.Machine

/-! ## A Step of a Ready CPU (R147) -/

/-- Settles O6. -/
theorem stepRunsDecodedInstruction : Obligations.StepRunsDecodedInstruction := by
  unfold Obligations.StepRunsDecodedInstruction
  intro s i rest hs hd
  exact step_of_decode3 hs (decode3_of_decode hd)

/-- The three bytes that a Step fetches from `PC` on, as many as the longest instruction has (R80). -/
def State.fetched (s : State) : List Byte := [s.readByte s.pc, s.readByte (s.pc + 1), s.readByte (s.pc + 2)]

/-- Byte `k` of the fetch lies at `PC + k`, modulo 65536. -/
theorem State.fetched_getElem (s : State) (k : Nat) (hk : k < s.fetched.length) :
    s.fetched[k] = s.readByte (s.pc + BitVec.ofNat 16 k) := by
  match k, hk with
  | 0, _ => exact congrArg s.readByte (BitVec.add_zero s.pc).symm
  | 1, _ => rfl
  | 2, _ => rfl

/-- No instruction is longer than the fetch (R82). -/
theorem encode_length_le_fetched (i : Instr) (s : State) : (encode i).length ≤ s.fetched.length := by
  rw [encode_length]
  change i.mode.size ≤ 3
  cases i.mode <;> decide

/-- An instruction whose bytes lie at `PC` is where the fetch begins. -/
theorem encode_prefix_fetched {s : State} {i : Instr}
    (h : ∀ k (hk : k < (encode i).length), s.readByte (s.pc + BitVec.ofNat 16 k) = (encode i)[k]) :
    encode i <+: s.fetched :=
  List.prefix_iff_getElem.2
    ⟨encode_length_le_fetched i s, fun k hk => (h k hk).symm.trans (s.fetched_getElem k _).symm⟩

/-- Settles O7: the fetch is the instruction's encoding and more bytes, which the decoder leaves over. -/
theorem stepRunsInstructionInMemory : Obligations.StepRunsInstructionInMemory := by
  unfold Obligations.StepRunsInstructionInMemory
  intro s i hs hbytes
  obtain ⟨rest, hfetch⟩ := encode_prefix_fetched hbytes
  have hd : decode s.fetched = .ok i rest := hfetch ▸ Laws.DecodeEncode.statement i rest
  exact step_of_decode3 hs (decode3_of_decode hd)

/-! ## The outcome of a Step (R337) -/

/-- Settles O9. -/
theorem stepStopsUnlessReady : Obligations.StepStopsUnlessReady := by
  unfold Obligations.StepStopsUnlessReady
  intro s
  refine ⟨fun h => ?_, fun _ _ h => ?_, fun h => ?_, fun _ h => ?_⟩
  all_goals simp only [step, h]

/-- What a step of a Ready CPU does: its opcode byte has no entry, or it runs the instruction it decodes. -/
theorem step_ready {s : State} (hs : s.status = .ready) :
    (lookup (s.readByte s.pc) = none ∧ step s = .next (s.raiseUnimplemented (s.readByte s.pc))) ∨
      ∃ i rest, decode s.fetched = .ok i rest ∧ step s = exec i s := by
  cases hl : lookup (s.readByte s.pc) with
  | none => exact .inl ⟨rfl, step_of_no_entry hs hl⟩
  | some r =>
    obtain ⟨i, rest, hr⟩ := r.layout.decode_two (s.readByte (s.pc + 1)) (s.readByte (s.pc + 2))
    have hd : decode s.fetched = .ok i rest := by rw [State.fetched, decode_cons, hl]; exact hr
    exact .inr ⟨i, rest, hd, step_of_decode3 hs (decode3_of_decode hd)⟩

/-- BRK is the one instruction of its mnemonic. -/
theorem mnemonic_eq_BRK {i : Instr} : i.mnemonic = .BRK ↔ i = .brk := by
  refine ⟨fun h => ?_, fun h => h ▸ rfl⟩
  cases i with
  | brk => rfl
  | _ => cases h

/-- The run status after an instruction: BRK halts, and no other instruction writes it (R147 step 7). -/
theorem exec_status {i : Instr} {s t : State} (h : exec i s = .next t) :
    t.status = if i = .brk then .halted else s.status := by
  rw [exec_next h, finish_status, handler_status]
  simp only [handler_halt, mnemonic_eq_BRK, State.advance_status]

/-- An opcode byte is 0x00 exactly when it decodes to BRK (R310). -/
theorem opcode_eq_zero_iff_brk {op : Byte} {tail rest : List Byte} {i : Instr} (h : decode (op :: tail) = .ok i rest) :
    op = 0x00 ↔ i = .brk := by
  constructor
  · rintro rfl
    have hbrk : decode (0x00 :: tail) = .ok .brk tail := Laws.DecodeEncode.brk tail
    rw [hbrk] at h
    cases h
    rfl
  · rintro rfl
    exact (List.cons.inj (decodeReadsOnlyEncodings _ _ _ h)).1

/-- An opcode byte that decodes to an instruction is none of R120's. -/
theorem opcode_not_mem_unimplemented {op : Byte} {tail rest : List Byte} {i : Instr}
    (h : decode (op :: tail) = .ok i rest) : op ∉ unimplementedOpcodes := by
  intro hop
  rw [(opcodesWithoutEntry.2 op tail).2 hop] at h
  cases h

/-- Settles O11: a byte without an entry faults and is not 0x00; an instruction halts exactly if it is BRK. -/
theorem readyStepHasOneOutcome : Obligations.ReadyStepHasOneOutcome := by
  unfold Obligations.ReadyStepHasOneOutcome
  intro s hs
  obtain ⟨hl, hstep⟩ | ⟨i, rest, hd, hstep⟩ := step_ready hs
  · have hop : s.readByte s.pc ∈ unimplementedOpcodes := (lookup_eq_none_iff_unimplemented _).1 hl
    have hne : s.readByte s.pc ≠ 0x00 := fun h => absurd (h ▸ hop) (by decide)
    exact ⟨_, hstep, by rw [if_neg hne, if_pos hop, State.raiseUnimplemented_status]⟩
  · obtain ⟨t, ht⟩ : ∃ t, exec i s = .next t := ⟨_, exec_eq i s⟩
    refine ⟨t, hstep.trans ht, ?_⟩
    simp only [exec_status ht, hs, opcode_eq_zero_iff_brk hd, if_neg (opcode_not_mem_unimplemented hd)]

/-! ## `PC` after an instruction (R150) -/

/-- A branch whose condition fails leaves `PC` to the loop (R260). -/
theorem branch_not_taken {cond : Bool} (h : cond = false) (d : Byte) (s : State) : branch cond d s = (s, .advance) := by
  rw [h]
  rfl

/-- Only JMP, JSR and a branch that is taken set `PC` themselves. -/
theorem handler_ne_pcUpdated {i : Instr} (o : Operand) {s : State} (hjmp : i.mnemonic ≠ .JMP) (hjsr : i.mnemonic ≠ .JSR)
    (h : branchTaken i s.p = false) : (handlerOf i.mnemonic o s).2 ≠ .pcUpdated := by
  unfold branchTaken at h
  cases hm : i.mnemonic with
  | JMP => exact absurd hm hjmp
  | JSR => exact absurd hm hjsr
  | BCC | BCS | BEQ | BNE | BMI | BPL | BVC | BVS =>
    rw [hm] at h
    simp only [handlerOf, branchCC, branchCS, branchEQ, branchNE, branchMI, branchPL, branchVC, branchVS,
      State.flag_eq_bit, Flag.bit, branch_not_taken h]
    decide
  | _ => exact nofun

/-- Settles O12: the loop moves `PC` by 1 before such a handler and by the operand bytes after it. -/
theorem pcAfterInstruction : Obligations.PcAfterInstruction := by
  unfold Obligations.PcAfterInstruction
  intro i s t h hjmp hjsr hbranch
  have hset : (handlerOf i.mnemonic i.operand (s.advance 1)).2 ≠ .pcUpdated :=
    handler_ne_pcUpdated (s := s.advance 1) i.operand hjmp hjsr hbranch
  calc t.pc
      = (s.advance 1).pc + BitVec.ofNat 16 (i.mode.size - 1) := by
        rw [exec_next h, finish_pc, if_neg hset, handler_pc _ _ _ hjmp hjsr hset]
    _ = s.pc + (BitVec.ofNat 16 1 + BitVec.ofNat 16 i.mode.operandBytes) := by
        rw [State.advance_pc, Mode.size_eq, Nat.add_sub_cancel_left, BitVec.add_assoc]
    _ = s.pc + BitVec.ofNat 16 (encode i).length := by
        rw [encode_length, Mode.size_eq, BitVec.ofNat_add]

/-! ## The budget of a Run (R149) -/

/-- A loop that ends before its budget is spent ends the same with a larger one. -/
theorem runLoop_add {n : Nat} {s : State} (k : Nat) (h : (runLoop n s).answer ≠ .budgetSpent) :
    runLoop (n + k) s = runLoop n s := by
  induction n generalizing s with
  | zero => exact absurd rfl h
  | succ n ih =>
    rw [Nat.succ_add]
    cases hstep : step s with
    | fault | refused => simp only [runLoop, hstep]
    | next t =>
      cases ht : t.status with
      | halted | faulted | loadFailed | refused => simp only [runLoop, hstep, ht]
      | ready =>
        simp only [runLoop, hstep, ht] at h ⊢
        exact ih h

/-- Settles O58: Run is the loop, or refuses without looking at its budget. -/
theorem largerBudgetChangesNoFinishedRun : Obligations.LargerBudgetChangesNoFinishedRun := by
  unfold Obligations.LargerBudgetChangesNoFinishedRun
  intro n k s h
  unfold run at h ⊢
  cases hs : s.status with
  | ready | halted =>
    rw [hs] at h
    exact runLoop_add k h
  | faulted | loadFailed | refused => rfl

/-! ## Flag writes (R130, R131) -/

/-- Settles O22: NZ writes N, then Z. -/
theorem nzWritesTwoBits : Obligations.NzWritesTwoBits := by
  unfold Obligations.NzWritesTwoBits
  intro v p k hk
  have hzero : (v == 0) = decide (v.toNat = 0) := by
    rw [Bool.beq_eq_decide_eq]
    exact decide_eq_decide.2 BitVec.toNat_inj.symm
  rw [nz, putFlag_getLsbD _ _ _ k hk, putFlag_getLsbD _ _ _ k hk, hzero, Flag.bit, Flag.bit]
  by_cases h7 : k = 7 <;> simp [h7]

/-- Settles O23: each position is the flag's bit, of which the laws of one flag speak. -/
theorem flagWriteChangesOneBit : Obligations.FlagWriteChangesOneBit := by
  unfold Obligations.FlagWriteChangesOneBit
  intro p b fk hfk
  obtain ⟨f, n⟩ := fk
  obtain rfl : n = f.bit := by
    revert hfk
    cases f <;> simp [Flag.bit]
  have hmask : f.mask = BitVec.ofNat 8 (2 ^ f.bit) := by cases f <;> rfl
  exact ⟨testFlag_eq_bit f p, hmask, rfl, putFlag_getLsbD f b p⟩

/-! ## Add with carry (R132, R135) -/

/-- The addition with its carry in as a number. -/
theorem addWithCarry_eq (a b : Byte) (cin : Bool) :
    addWithCarry a b cin =
      (BitVec.ofNat 8 (a.toNat + b.toNat + cin.toNat), decide (a.toNat + b.toNat + cin.toNat > 0xFF)) := by
  cases cin <;> rfl

/-- The sum and its carry out are the integer sum of the bytes and the carry in. -/
theorem addWithCarry_toNat (a b : Byte) (cin : Bool) :
    (addWithCarry a b cin).1.toNat + 256 * (addWithCarry a b cin).2.toNat = a.toNat + b.toNat + cin.toNat := by
  have ha : a.toNat < 256 := a.isLt
  have hb : b.toNat < 256 := b.isLt
  have hc : cin.toNat ≤ 1 := cin.toNat_le
  rw [addWithCarry_eq, BitVec.toNat_ofNat]
  by_cases h : a.toNat + b.toNat + cin.toNat > 0xFF
  · rw [decide_eq_true h, Bool.toNat_true]
    omega
  · rw [decide_eq_false h, Bool.toNat_false]
    omega

/-- The overflow formula is about bit 7 of its three bytes. -/
theorem overflow_iff (a b r : Byte) :
    overflow a b r = true ↔ a.getLsbD 7 = b.getLsbD 7 ∧ r.getLsbD 7 ≠ a.getLsbD 7 := by
  have hbool : ∀ x y z : Bool, ((x ^^ z) && (y ^^ z)) = true ↔ x = y ∧ z ≠ x := by decide
  have hbit : overflow a b r = ((a ^^^ r) &&& (b ^^^ r)).getLsbD 7 := testFlag_eq_bit .N _
  rw [hbit, BitVec.getLsbD_and, BitVec.getLsbD_xor, BitVec.getLsbD_xor]
  exact hbool _ _ _

/-- Bit 7 of a byte is its sign. -/
theorem getLsbD_seven (v : Byte) : v.getLsbD 7 = decide (128 ≤ v.toNat) :=
  (BitVec.msb_eq_getLsbD_last v).symm.trans (BitVec.msb_eq_decide v)

/-- A byte read as a signed number. -/
theorem toInt_byte (v : Byte) : v.toInt = if 128 ≤ v.toNat then (v.toNat : Int) - 256 else v.toNat := by
  rw [BitVec.toInt_eq_msb_cond, BitVec.msb_eq_decide]
  simp

/-- The overflow of an addition's result: the signed sum does not fit in a byte. -/
theorem overflow_addWithCarry_iff (a b : Byte) (cin : Bool) :
    overflow a b (addWithCarry a b cin).1 = true ↔
      a.toInt + b.toInt + cin.toNat < -128 ∨ 127 < a.toInt + b.toInt + cin.toNat := by
  have hsum := addWithCarry_toNat a b cin
  have hcarry : (addWithCarry a b cin).2.toNat ≤ 1 := Bool.toNat_le _
  have hr := (addWithCarry a b cin).1.isLt
  have hc : cin.toNat ≤ 1 := cin.toNat_le
  rw [overflow_iff, getLsbD_seven, getLsbD_seven, getLsbD_seven, decide_eq_decide, ne_eq, decide_eq_decide,
    toInt_byte, toInt_byte]
  split <;> split <;> omega

/-- Settles O24. -/
theorem addWithCarryIsTheIntegerSum : Obligations.AddWithCarryIsTheIntegerSum := by
  unfold Obligations.AddWithCarryIsTheIntegerSum
  intro a b r cin
  exact ⟨addWithCarry_toNat a b cin, rfl, overflow_iff a b r, overflow_addWithCarry_iff a b cin⟩

/-! ## Shifts (R133, R134, R223) -/

/-- A shift to the left doubles the byte, modulo 256. -/
theorem shiftLeft_one_toNat (v : Byte) : (v <<< 1).toNat = 2 * v.toNat % 256 := by
  rw [BitVec.toNat_shiftLeft, Nat.shiftLeft_eq, Nat.mul_comm]

/-- The carry goes to a bit that the shift left empty, so the `or` is a sum. -/
theorem shiftLeft_one_or_bitByte (v : Byte) (c : Bool) : v <<< 1 ||| bitByte c = v <<< 1 + bitByte c := by
  have hbit0 : v <<< 1 &&& 1#8 = 0#8 := by
    rw [BitVec.and_one_eq_setWidth_ofBool_getLsbD, BitVec.getLsbD_shiftLeft]
    simp
  cases c with
  | false => exact (BitVec.or_zero).trans (BitVec.add_zero _).symm
  | true => exact (BitVec.add_eq_or_of_and_eq_zero _ _ hbit0).symm

/-- Settles O25. -/
theorem shiftsMoveOneBit : Obligations.ShiftsMoveOneBit := by
  unfold Obligations.ShiftsMoveOneBit
  intro v c
  refine ⟨⟨shiftLeft_one_toNat v, rfl⟩, ⟨?right, rfl⟩, ?rotate, rfl⟩
  case right => rw [shiftRight, BitVec.toNat_ushiftRight, Nat.shiftRight_eq_div_pow, Nat.pow_one]
  case rotate =>
    have hc : (bitByte c).toNat = c.toNat := by cases c <;> rfl
    rw [rotateLeft, shiftLeft_one_or_bitByte, BitVec.toNat_add, shiftLeft_one_toNat, hc, Nat.mod_add_mod]

end Sys2Proof.Machine

/-! PROOFS. Loads and transfers (41_loads_transfers.md): LDA, LDX, LDY and TAX in every form. -/

namespace Sys2Proof.Machine

/-! ## Instructions whose handler leaves `PC` to the loop (R144, R147) -/

/-- `PC` moves past an instruction in two parts, the opcode byte first (R143) and the operand bytes after the handler. -/
theorem State.advance_opcode_advance_operand (t : State) (m : Mode) :
    (t.advance 1).advance (m.size - 1) = t.advance m.size := by
  refine congrArg t.setPc ?_
  rw [State.advance_pc, BitVec.add_assoc, ← BitVec.ofNat_add, Mode.size_eq, Nat.add_sub_cancel_left]

/-- What an instruction does whose handler asks for Advance: what the handler does, with `PC` past the instruction. `t` is the
handler's state with `PC` back at the instruction. -/
theorem runsTo_of_handler {i : Instr} {bytes : List Byte} {s t : State}
    (hdecode : ∀ rest, decode (bytes ++ rest) = .ok i rest)
    (hhandler : handlerOf i.mnemonic i.operand (s.advance 1) = (t.advance 1, .advance)) :
    RunsTo i bytes s (t.advance i.mode.size) := by
  refine ⟨hdecode, ?_⟩
  rw [exec_eq, runHandler_eq, hhandler, finish, State.advance_opcode_advance_operand]

/-- Moving `PC` does not change the operand byte. -/
@[simp] theorem Source.load_advance (o : Source) (s : State) (n : Nat) : o.load (s.advance n) = o.load s :=
  o.load_congr rfl rfl rfl

/-! ## The loads (R161, R162, R163) -/

section
variable {i : Instr} {bytes : List Byte} {s : State} {v : Byte}

/-- An LDA whose operand byte is `v`. -/
theorem runsTo_lda (hi : i.mnemonic = .LDA) (hdecode : ∀ rest, decode (bytes ++ rest) = .ok i rest)
    (hload : (Source.ofOperand i.operand).load s = v) :
    RunsTo i bytes s { s with a := v, p := nz v s.p, pc := s.pc + BitVec.ofNat 16 i.mode.size } := by
  refine runsTo_of_handler (t := (s.setA v).setNZ v) hdecode ?_
  rw [hi, handlerOf, lda, Source.load_advance, hload]
  rfl

/-- An LDX whose operand byte is `v`. -/
theorem runsTo_ldx (hi : i.mnemonic = .LDX) (hdecode : ∀ rest, decode (bytes ++ rest) = .ok i rest)
    (hload : (Source.ofOperand i.operand).load s = v) :
    RunsTo i bytes s { s with x := v, p := nz v s.p, pc := s.pc + BitVec.ofNat 16 i.mode.size } := by
  refine runsTo_of_handler (t := (s.setX v).setNZ v) hdecode ?_
  rw [hi, handlerOf, ldx, Source.load_advance, hload]
  rfl

/-- An LDY whose operand byte is `v`. -/
theorem runsTo_ldy (hi : i.mnemonic = .LDY) (hdecode : ∀ rest, decode (bytes ++ rest) = .ok i rest)
    (hload : (Source.ofOperand i.operand).load s = v) :
    RunsTo i bytes s { s with y := v, p := nz v s.p, pc := s.pc + BitVec.ofNat 16 i.mode.size } := by
  refine runsTo_of_handler (t := (s.setY v).setNZ v) hdecode ?_
  rw [hi, handlerOf, ldy, Source.load_advance, hload]
  rfl

end

/-- Settles O27: each form decodes by its constructor's law, and its operand byte is the one its mode reads. -/
theorem ldaLoadsAccumulator : Obligations.LdaLoadsAccumulator := by
  unfold Obligations.LdaLoadsAccumulator
  intro s d lo hi
  open Laws.DecodeEncode in
  exact ⟨runsTo_lda rfl (ldaImm d) rfl, runsTo_lda rfl (ldaZp d) rfl, runsTo_lda rfl (ldaZpX d) rfl,
    runsTo_lda rfl (decode_word (fun _ => rfl) lo hi) rfl, runsTo_lda rfl (decode_word (fun _ => rfl) lo hi) rfl,
    runsTo_lda rfl (decode_word (fun _ => rfl) lo hi) rfl,
    runsTo_lda rfl (ldaIndX d) rfl, runsTo_lda rfl (ldaIndY d) rfl⟩

/-! ## The index registers (R162, R163, R164) -/

/-- Settles O28: as for LDA; TAX is its handler alone. -/
theorem indexRegistersLoad : Obligations.IndexRegistersLoad := by
  unfold Obligations.IndexRegistersLoad
  intro s d lo hi
  have htax : RunsTo .tax [0xAA] s (((s.setX s.a).setNZ s.a).advance 1) :=
    runsTo_of_handler Laws.DecodeEncode.tax rfl
  open Laws.DecodeEncode in
  exact ⟨runsTo_ldx rfl (ldxImm d) rfl, runsTo_ldx rfl (ldxZp d) rfl, runsTo_ldx rfl (ldxZpY d) rfl,
    runsTo_ldx rfl (decode_word (fun _ => rfl) lo hi) rfl, runsTo_ldx rfl (decode_word (fun _ => rfl) lo hi) rfl,
    runsTo_ldy rfl (ldyImm d) rfl, runsTo_ldy rfl (ldyZp d) rfl, runsTo_ldy rfl (ldyZpX d) rfl,
    runsTo_ldy rfl (decode_word (fun _ => rfl) lo hi) rfl, runsTo_ldy rfl (decode_word (fun _ => rfl) lo hi) rfl, htax⟩

end Sys2Proof.Machine

/-! PROOFS. Arithmetic and compare (42_arithmetic_compare.md): the compare function, and ADC, CMP, CPX and CPY in every form. -/

namespace Sys2Proof.Machine

/-! ## The compare function (R180) -/

/-- Bit 7 of a difference, also where it wraps (D20): adding 256 first keeps the difference of the numbers from going below 0. -/
theorem sub_getLsbD_seven (r m : Byte) :
    (r - m).getLsbD 7 = decide (128 ≤ (256 + r.toNat - m.toNat) % 256) := by
  have hm : m.toNat < 256 := m.isLt
  have hwrap : 2 ^ 8 - m.toNat + r.toNat = 256 + r.toNat - m.toNat := by omega
  rw [getLsbD_seven, BitVec.toNat_sub, hwrap]

/-- A difference is zero exactly when the bytes are equal. -/
theorem sub_toNat_eq_zero_iff (r m : Byte) : (r - m).toNat = 0 ↔ r = m := by
  have hzero : r - m = 0#8 ↔ r = m := sub_eq_zero
  rw [← hzero, ← BitVec.toNat_inj]
  rfl

/-- Settles O26: NZ of the difference decides bits 7 and 1, and below it C is written to bit 0. -/
theorem compareSetsThreeFlags : Obligations.CompareSetsThreeFlags := by
  unfold Obligations.CompareSetsThreeFlags
  intro r m p k hk
  have hzero : decide ((r - m).toNat = 0) = decide (r = m) := decide_eq_decide.2 (sub_toNat_eq_zero_iff r m)
  rw [compareFlags, nzWritesTwoBits _ _ k hk, putFlag_getLsbD _ _ _ k hk, sub_getLsbD_seven, hzero, Flag.bit]
  by_cases h7 : k = 7
  · simp [h7]
  · by_cases h1 : k = 1 <;> simp [h7, h1]

/-! ## One law of ADC (R181) and one of the compares (R182, R183, R184) -/

section
variable {i : Instr} {bytes : List Byte} {s : State}

/-- An ADC whose operand byte is `m`. -/
theorem runsTo_adc {m : Byte} (hi : i.mnemonic = .ADC) (hdecode : ∀ rest, decode (bytes ++ rest) = .ok i rest)
    (hload : (Source.ofOperand i.operand).load s = m) :
    RunsTo i bytes s (adcResult s m (s.pc + BitVec.ofNat 16 i.mode.size)) := by
  have hcarry : (s.advance 1).flag .C = s.p.getLsbD 0 := State.flag_eq_bit s .C
  refine runsTo_of_handler (t := adcResult s m s.pc) hdecode ?_
  rw [hi, handlerOf, adc, Source.load_advance, hload, hcarry]
  rfl

/-- A compare of the byte `r` with the operand byte `m`. -/
theorem runsTo_compare {r m : Byte}
    (hi : handlerOf i.mnemonic i.operand (s.advance 1) = compareWith r (Source.ofOperand i.operand) (s.advance 1))
    (hdecode : ∀ rest, decode (bytes ++ rest) = .ok i rest) (hload : (Source.ofOperand i.operand).load s = m) :
    RunsTo i bytes s { s with p := compareFlags r m s.p, pc := s.pc + BitVec.ofNat 16 i.mode.size } := by
  refine runsTo_of_handler (t := s.setP (compareFlags r m s.p)) hdecode ?_
  rw [hi, compareWith, Source.load_advance, hload]
  rfl

end

/-! ## Every form (R181 to R184) -/

/-- Settles O29: each form decodes by its constructor's law, and adds the byte its mode reads. -/
theorem adcAddsWithCarry : Obligations.AdcAddsWithCarry := by
  unfold Obligations.AdcAddsWithCarry
  intro s d lo hi
  open Laws.DecodeEncode in
  exact ⟨runsTo_adc rfl (adcImm d) rfl, runsTo_adc rfl (adcZp d) rfl, runsTo_adc rfl (adcZpX d) rfl,
    runsTo_adc rfl (decode_word (fun _ => rfl) lo hi) rfl, runsTo_adc rfl (decode_word (fun _ => rfl) lo hi) rfl,
    runsTo_adc rfl (decode_word (fun _ => rfl) lo hi) rfl,
    runsTo_adc rfl (adcIndX d) rfl, runsTo_adc rfl (adcIndY d) rfl⟩

/-- Settles O30: one law of a compare, of A in eight forms, of X in three and of Y in three. -/
theorem comparesWriteFlagsOnly : Obligations.ComparesWriteFlagsOnly := by
  unfold Obligations.ComparesWriteFlagsOnly
  intro s d lo hi
  open Laws.DecodeEncode in
  exact ⟨runsTo_compare rfl (cmpImm d) rfl, runsTo_compare rfl (cmpZp d) rfl, runsTo_compare rfl (cmpZpX d) rfl,
    runsTo_compare rfl (decode_word (fun _ => rfl) lo hi) rfl, runsTo_compare rfl (decode_word (fun _ => rfl) lo hi) rfl,
    runsTo_compare rfl (decode_word (fun _ => rfl) lo hi) rfl,
    runsTo_compare rfl (cmpIndX d) rfl, runsTo_compare rfl (cmpIndY d) rfl,
    runsTo_compare rfl (cpxImm d) rfl, runsTo_compare rfl (cpxZp d) rfl,
    runsTo_compare rfl (decode_word (fun _ => rfl) lo hi) rfl,
    runsTo_compare rfl (cpyImm d) rfl, runsTo_compare rfl (cpyZp d) rfl,
    runsTo_compare rfl (decode_word (fun _ => rfl) lo hi) rfl⟩

end Sys2Proof.Machine

/-! PROOFS. Logical instructions (43_logical.md): AND, EOR, ORA and BIT in every form. -/

namespace Sys2Proof.Machine

section
variable {i : Instr} {bytes : List Byte} {s : State} {m : Byte}

/-- AND, EOR or ORA, each by its bitwise operation `op`, with operand byte `m` (R200, R201, R202). -/
theorem runsTo_logic {op : Byte → Byte → Byte}
    (hi : handlerOf i.mnemonic i.operand = fun t =>
      let r := op t.a ((Source.ofOperand i.operand).load t)
      ((t.setA r).setNZ r, .advance))
    (hdecode : ∀ rest, decode (bytes ++ rest) = .ok i rest) (hload : (Source.ofOperand i.operand).load s = m) :
    RunsTo i bytes s { s with a := op s.a m, p := nz (op s.a m) s.p, pc := s.pc + BitVec.ofNat 16 i.mode.size } := by
  refine runsTo_of_handler (t := (s.setA (op s.a m)).setNZ (op s.a m)) hdecode ?_
  simp only [hi, Source.load_advance, hload]
  rfl

/-- A BIT whose operand byte is `m` (R203). -/
theorem runsTo_bit (hi : i.mnemonic = .BIT) (hdecode : ∀ rest, decode (bytes ++ rest) = .ok i rest)
    (hload : (Source.ofOperand i.operand).load s = m) :
    RunsTo i bytes s
      { s with
        p := putFlag .Z (s.a &&& m == 0) (putFlag .V (m.getLsbD 6) (putFlag .N (m.getLsbD 7) s.p))
        pc := s.pc + BitVec.ofNat 16 i.mode.size } := by
  refine runsTo_of_handler
    (t := ((s.setFlag .N (m.getLsbD 7)).setFlag .V (m.getLsbD 6)).setFlag .Z (s.a &&& m == 0)) hdecode ?_
  rw [hi, handlerOf, bitTest, Source.load_advance, hload]
  rfl

end

/-- Settles O31: one law of a bitwise operation on A; a form decodes by its constructor's law, and its operand byte is the one
its mode reads. -/
theorem logicIntoAccumulator : Obligations.LogicIntoAccumulator := by
  unfold Obligations.LogicIntoAccumulator
  intro s d lo hi
  open Laws.DecodeEncode in
  exact ⟨runsTo_logic rfl (andImm d) rfl, runsTo_logic rfl (andZp d) rfl, runsTo_logic rfl (andZpX d) rfl,
    runsTo_logic rfl (decode_word (fun _ => rfl) lo hi) rfl, runsTo_logic rfl (decode_word (fun _ => rfl) lo hi) rfl,
    runsTo_logic rfl (decode_word (fun _ => rfl) lo hi) rfl,
    runsTo_logic rfl (andIndX d) rfl, runsTo_logic rfl (andIndY d) rfl,
    runsTo_logic rfl (eorImm d) rfl, runsTo_logic rfl (eorZp d) rfl, runsTo_logic rfl (eorZpX d) rfl,
    runsTo_logic rfl (decode_word (fun _ => rfl) lo hi) rfl, runsTo_logic rfl (decode_word (fun _ => rfl) lo hi) rfl,
    runsTo_logic rfl (decode_word (fun _ => rfl) lo hi) rfl,
    runsTo_logic rfl (eorIndX d) rfl, runsTo_logic rfl (eorIndY d) rfl,
    runsTo_logic rfl (oraImm d) rfl, runsTo_logic rfl (oraZp d) rfl, runsTo_logic rfl (oraZpX d) rfl,
    runsTo_logic rfl (decode_word (fun _ => rfl) lo hi) rfl, runsTo_logic rfl (decode_word (fun _ => rfl) lo hi) rfl,
    runsTo_logic rfl (decode_word (fun _ => rfl) lo hi) rfl,
    runsTo_logic rfl (oraIndX d) rfl, runsTo_logic rfl (oraIndY d) rfl⟩

/-- Settles O32: one law of BIT, whose two forms differ in the address they read. -/
theorem bitTestsOperand : Obligations.BitTestsOperand := by
  unfold Obligations.BitTestsOperand
  intro s d lo hi
  open Laws.DecodeEncode in
  exact ⟨runsTo_bit rfl (bitZp d) rfl, runsTo_bit rfl (decode_word (fun _ => rfl) lo hi) rfl⟩

end Sys2Proof.Machine

/-! PROOFS. Shifts and rotates (44_shifts_rotates.md): ASL, LSR and ROL in every form. -/

namespace Sys2Proof.Machine

/-- Where a shift stores its result does not depend on `PC`, and storing it does not move `PC`. -/
theorem Target.store_advance (o : Target) (r : Byte) (s : State) (n : Nat) :
    o.store r (s.advance n) = (o.store r s).advance n := by
  cases o with
  | acc => rfl
  | mem m =>
    have haddr : ea m (s.advance n) = ea m s := ea_congr m rfl rfl rfl
    rw [Target.store, Target.store, haddr]
    rfl

/-- ROL shifts in bit 0 of `P`, which is C before ROL writes it (R223). -/
theorem rol_eq (o : Target) (s : State) :
    rol o s =
      shiftResult o (rotateLeft (o.load s) (s.p.getLsbD 0)).1 (rotateLeft (o.load s) (s.p.getLsbD 0)).2 s := by
  have hcarry : s.flag .C = s.p.getLsbD 0 := State.flag_eq_bit s .C
  rw [rol, hcarry]

section
variable {i : Instr} {bytes : List Byte} {s : State} {rc : Byte × Bool}

/-- A shift or rotate of the target `o`, `rc` being the result and the bit shifted out (R220). -/
theorem runsTo_shift {o : Target}
    (hi : handlerOf i.mnemonic i.operand (s.advance 1) = shiftResult o rc.1 rc.2 (s.advance 1))
    (hdecode : ∀ rest, decode (bytes ++ rest) = .ok i rest) :
    RunsTo i bytes s ((((o.store rc.1 s).setFlag .C rc.2).setNZ rc.1).advance i.mode.size) := by
  refine runsTo_of_handler hdecode ?_
  rw [hi, shiftResult, Target.store_advance]
  rfl

/-- A shift or rotate of `A`. -/
theorem runsTo_shiftedA (hmode : i.mode = .acc)
    (hi : handlerOf i.mnemonic i.operand (s.advance 1) = shiftResult .acc rc.1 rc.2 (s.advance 1))
    (hdecode : ∀ rest, decode (bytes ++ rest) = .ok i rest) : RunsTo i bytes s (shiftedA s rc) := by
  have hrun := runsTo_shift hi hdecode
  rw [hmode] at hrun
  exact hrun

/-- A shift or rotate of the byte at the effective address `addr`. -/
theorem runsTo_shiftedAt {m : Place} {addr : Addr} (hm : i.operand = .mem m) (haddr : ea m s = addr)
    (hi : handlerOf i.mnemonic (.mem m) (s.advance 1) = shiftResult (.mem m) rc.1 rc.2 (s.advance 1))
    (hdecode : ∀ rest, decode (bytes ++ rest) = .ok i rest) :
    RunsTo i bytes s (shiftedAt s addr rc (s.pc + BitVec.ofNat 16 i.mode.size)) := by
  subst haddr
  exact runsTo_shift (hm ▸ hi) hdecode

end

/-- Settles O33: one law for `A` and one for a byte of memory. The handlers of ASL and LSR have its form by definition, ROL's
by `rol_eq`; a form decodes by its constructor's law, and its address is its mode's. -/
theorem shiftsAndRotates : Obligations.ShiftsAndRotates := by
  unfold Obligations.ShiftsAndRotates
  intro s d lo hi
  open Laws.DecodeEncode in
  exact ⟨runsTo_shiftedA rfl rfl aslAcc, runsTo_shiftedAt rfl rfl rfl (aslZp d), runsTo_shiftedAt rfl rfl rfl (aslZpX d),
    runsTo_shiftedAt rfl rfl rfl (decode_word (fun _ => rfl) lo hi),
    runsTo_shiftedAt rfl rfl rfl (decode_word (fun _ => rfl) lo hi),
    runsTo_shiftedA rfl rfl lsrAcc, runsTo_shiftedAt rfl rfl rfl (lsrZp d), runsTo_shiftedAt rfl rfl rfl (lsrZpX d),
    runsTo_shiftedAt rfl rfl rfl (decode_word (fun _ => rfl) lo hi),
    runsTo_shiftedAt rfl rfl rfl (decode_word (fun _ => rfl) lo hi),
    runsTo_shiftedA rfl (rol_eq ..) rolAcc, runsTo_shiftedAt rfl rfl (rol_eq ..) (rolZp d),
    runsTo_shiftedAt rfl rfl (rol_eq ..) (rolZpX d),
    runsTo_shiftedAt rfl rfl (rol_eq ..) (decode_word (fun _ => rfl) lo hi),
    runsTo_shiftedAt rfl rfl (rol_eq ..) (decode_word (fun _ => rfl) lo hi)⟩

end Sys2Proof.Machine

/-! PROOFS. Increment and decrement (45_increment_decrement.md): INX, INY, DEX, DEY and every form of INC and DEC. -/

namespace Sys2Proof.Machine

/-! ## The index registers (R240 to R243) -/

/-- Settles O34: each is its handler alone, with `PC` one past the opcode byte. -/
theorem indexRegistersCount : Obligations.IndexRegistersCount := by
  unfold Obligations.IndexRegistersCount
  intro s
  have hinx : RunsTo .inx [0xE8] s (((s.setX (s.x + 1)).setNZ (s.x + 1)).advance 1) :=
    runsTo_of_handler Laws.DecodeEncode.inx rfl
  have hiny : RunsTo .iny [0xC8] s (((s.setY (s.y + 1)).setNZ (s.y + 1)).advance 1) :=
    runsTo_of_handler Laws.DecodeEncode.iny rfl
  have hdex : RunsTo .dex [0xCA] s (((s.setX (s.x - 1)).setNZ (s.x - 1)).advance 1) :=
    runsTo_of_handler Laws.DecodeEncode.dex rfl
  have hdey : RunsTo .dey [0x88] s (((s.setY (s.y - 1)).setNZ (s.y - 1)).advance 1) :=
    runsTo_of_handler Laws.DecodeEncode.dey rfl
  exact ⟨hinx, hiny, hdex, hdey⟩

/-! ## A byte of memory (R244, R245) -/

/-- An instruction whose handler writes `r` at its effective address `addr` and sets N and Z from `r`. -/
theorem runsTo_countedAt {i : Instr} {bytes : List Byte} {s : State} {m : Place} {addr : Addr} {r : Byte}
    (hm : i.operand = .mem m) (haddr : ea m s = addr)
    (hi : handlerOf i.mnemonic (.mem m) (s.advance 1) =
      (((s.advance 1).writeByte (ea m (s.advance 1)) r).setNZ r, .advance))
    (hdecode : ∀ rest, decode (bytes ++ rest) = .ok i rest) :
    RunsTo i bytes s (countedAt s addr r (s.pc + BitVec.ofNat 16 i.mode.size)) := by
  subst haddr
  refine runsTo_of_handler (t := (s.writeByte (ea m s) r).setNZ r) hdecode ?_
  have haddr : ea m (s.advance 1) = ea m s := ea_congr m rfl rfl rfl
  rw [hm, hi, haddr]
  rfl

/-- Settles O35: one law for both mnemonics. Their handlers have its form by definition; a form decodes by its constructor's
law, and its address is its mode's. -/
theorem memoryBytesCount : Obligations.MemoryBytesCount := by
  unfold Obligations.MemoryBytesCount
  intro s d lo hi
  open Laws.DecodeEncode in
  exact ⟨runsTo_countedAt rfl rfl rfl (incZp d), runsTo_countedAt rfl rfl rfl (incZpX d),
    runsTo_countedAt rfl rfl rfl (decode_word (fun _ => rfl) lo hi),
    runsTo_countedAt rfl rfl rfl (decode_word (fun _ => rfl) lo hi),
    runsTo_countedAt rfl rfl rfl (decZp d), runsTo_countedAt rfl rfl rfl (decZpX d),
    runsTo_countedAt rfl rfl rfl (decode_word (fun _ => rfl) lo hi),
    runsTo_countedAt rfl rfl rfl (decode_word (fun _ => rfl) lo hi)⟩

end Sys2Proof.Machine

/-! PROOFS. Branches (46_branches.md): BCC, BCS, BEQ, BNE, BMI, BPL, BVC and BVS, taken and not taken. -/

namespace Sys2Proof.Machine

/-- `PC` two past the opcode byte, reached through the address of the displacement (R143, R260). -/
theorem State.advance_one_pc_add_one (s : State) : (s.advance 1).pc + 1 = s.pc + 2 :=
  BitVec.add_assoc ..

/-- A branch as the loop runs it (R260): taken, its handler sets `PC` to the target; not taken, the loop moves `PC` past the
displacement. -/
theorem finish_branch (cond : Bool) (d : Byte) (s : State) :
    finish Mode.rel.size (branch cond d (s.advance 1)) =
      s.setPc (if cond then s.pc + 2 + d.signExtend 16 else s.pc + 2) := by
  cases cond with
  | true => exact congrArg (fun base => s.setPc (base + d.signExtend 16)) s.advance_one_pc_add_one
  | false => exact congrArg s.setPc s.advance_one_pc_add_one

section
variable {i : Instr} {bytes : List Byte} {s : State} {d : Byte}

/-- A relative instruction whose handler branches on `cond`. -/
theorem runsTo_branch {cond : Bool} (hmode : i.mode = .rel)
    (hi : handlerOf i.mnemonic i.operand (s.advance 1) = branch cond d (s.advance 1))
    (hdecode : ∀ rest, decode (bytes ++ rest) = .ok i rest) :
    RunsTo i bytes s (s.setPc (if cond then s.pc + 2 + d.signExtend 16 else s.pc + 2)) := by
  refine ⟨hdecode, ?_⟩
  rw [exec_eq, runHandler_eq, hmode, hi, finish_branch]

/-- A branch that tests for the flag `f` being 1. -/
theorem runsTo_branch_set (f : Flag) (hmode : i.mode = .rel)
    (hi : handlerOf i.mnemonic i.operand (s.advance 1) = branch (s.flag f) d (s.advance 1))
    (hdecode : ∀ rest, decode (bytes ++ rest) = .ok i rest) :
    RunsTo i bytes s
      { s with pc := if s.p.getLsbD f.bit = true then s.pc + 2 + d.signExtend 16 else s.pc + 2 } := by
  rw [State.flag_eq_bit] at hi
  exact runsTo_branch hmode hi hdecode

/-- A branch that tests for the flag `f` being 0. -/
theorem runsTo_branch_clear (f : Flag) (hmode : i.mode = .rel)
    (hi : handlerOf i.mnemonic i.operand (s.advance 1) = branch (!s.flag f) d (s.advance 1))
    (hdecode : ∀ rest, decode (bytes ++ rest) = .ok i rest) :
    RunsTo i bytes s
      { s with pc := if s.p.getLsbD f.bit = false then s.pc + 2 + d.signExtend 16 else s.pc + 2 } := by
  rw [State.flag_eq_bit] at hi
  have hrun := runsTo_branch hmode hi hdecode
  simp only [Bool.not_eq_true'] at hrun
  exact hrun

end

/-- Settles O36: one law for the flag a branch wants set and one for the flag it wants clear; each branch names its flag and
decodes by its constructor's law. -/
theorem branchesGoWhereTheirFlagSays : Obligations.BranchesGoWhereTheirFlagSays := by
  unfold Obligations.BranchesGoWhereTheirFlagSays
  intro s d
  open Laws.DecodeEncode in
  exact ⟨runsTo_branch_clear .C rfl rfl (bcc d), runsTo_branch_set .C rfl rfl (bcs d),
    runsTo_branch_set .Z rfl rfl (beq d), runsTo_branch_clear .Z rfl rfl (bne d),
    runsTo_branch_set .N rfl rfl (bmi d), runsTo_branch_clear .N rfl rfl (bpl d),
    runsTo_branch_clear .V rfl rfl (bvc d), runsTo_branch_set .V rfl rfl (bvs d)⟩

end Sys2Proof.Machine

/-! PROOFS. Jumps and subroutines (47_jumps_subroutines.md): JMP in both forms, and JSR with the order of its pushes and its
operand read. -/

namespace Sys2Proof.Machine

/-! ## JMP (R280, R281) -/

/-- A JMP whose effective address is `addr`: its handler sets `PC`, which the loop leaves there (R145). -/
theorem runsTo_jmp {i : Instr} {bytes : List Byte} {s : State} {m : Place} {addr : Addr}
    (hi : handlerOf i.mnemonic i.operand = jmp m) (hdecode : ∀ rest, decode (bytes ++ rest) = .ok i rest)
    (haddr : ea m s = addr) : RunsTo i bytes s (s.setPc addr) := by
  subst haddr
  have hea : ea m (s.advance 1) = ea m s := ea_congr m rfl rfl rfl
  refine ⟨hdecode, ?_⟩
  rw [exec_eq, runHandler_eq, hi, jmp, hea]
  rfl

/-- Settles O37: each form's effective address is the word its rule names. -/
theorem jumpsLoadPc : Obligations.JumpsLoadPc := by
  unfold Obligations.JumpsLoadPc
  intro s lo hi
  exact ⟨runsTo_jmp rfl (decode_word (fun _ => rfl) lo hi) rfl, runsTo_jmp rfl (decode_word (fun _ => rfl) lo hi) rfl⟩

/-! ## JSR (R282) -/

/-- The state after JSR's two pushes: the address of its last byte, high byte first (D9). -/
def State.pushReturn (s : State) : State := (s.push (highByte (s.pc + 2))).push (lowByte (s.pc + 2))

/-- JSR pushes, then jumps to its operand word as the two operand bytes read after the pushes. -/
theorem exec_jsr (w : Addr) (s : State) :
    exec (.jsr w) s = .next (s.pushReturn.setPc
      (wordOf (jsrOperandByte s s.pushReturn (s.pc + 2) (highByte w))
        (jsrOperandByte s s.pushReturn (s.pc + 1) (lowByte w)))) := by
  rw [State.pushReturn, ← s.advance_one_pc_add_one]
  rfl

/-- Away from the two stack bytes JSR pushes to, its pushes leave memory alone. -/
theorem State.readByte_pushReturn_ne {s : State} (hs : Canonical s) {b : Addr} (hfirst : b ≠ stackAddr s.sp)
    (hsecond : b ≠ stackAddr (s.sp - 1)) : s.pushReturn.readByte b = s.readByte b := by
  rw [State.pushReturn, State.readByte_push_push hs, if_neg hsecond, if_neg hfirst]

/-- Where memory holds the fetched operand byte, JSR's operand byte is what memory holds after the pushes. -/
theorem jsrOperandByte_pushReturn {s : State} (hs : Canonical s) {b : Addr} {v : Byte} (hv : s.readByte b = v) :
    jsrOperandByte s s.pushReturn b v = s.pushReturn.readByte b :=
  jsrOperandByte_eq_read fun hfirst hsecond => (State.readByte_pushReturn_ne hs hfirst hsecond).trans hv

/-- Settles O38: both operand bytes are read from memory after the pushes, so together they are the word there. -/
theorem jsrPushesThenReadsTarget : Obligations.JsrPushesThenReadsTarget := by
  unfold Obligations.JsrPushesThenReadsTarget
  intro s lo hi hs hlo hhi
  have hsp : s.pushReturn.sp = s.sp - 2 := BitVec.sub_sub ..
  have hword : wordOf (s.pushReturn.readByte (s.pc + 2)) (s.pushReturn.readByte (s.pc + 1)) =
      s.pushReturn.readWord (s.pc + 1) := by
    rw [← s.advance_one_pc_add_one]
    rfl
  refine ⟨⟨decode_word (fun _ => rfl) lo hi, ?_⟩, hsp⟩
  rw [exec_jsr, ← wordOf_eq_append, highByte_wordOf, lowByte_wordOf, jsrOperandByte_pushReturn hs hlo,
    jsrOperandByte_pushReturn hs hhi, hword]
  rfl

/-- Settles O39: no push hits an operand byte, so the target is the word that was fetched. -/
theorem jsrJumpsToItsOperand : Obligations.JsrJumpsToItsOperand := by
  unfold Obligations.JsrJumpsToItsOperand
  intro s w hmiss
  obtain ⟨hlo, hlo'⟩ := hmiss _ (.inl rfl)
  obtain ⟨hhi, hhi'⟩ := hmiss _ (.inr rfl)
  rw [exec_jsr, jsrOperandByte_eq_fetched hlo hlo', jsrOperandByte_eq_fetched hhi hhi', wordOf_high_low]
  rfl

end Sys2Proof.Machine

/-! PROOFS. Flags, stack and halt (48_flags_stack_halt.md): CLC, CLD, CLI, CLV, PHA, PHP, PLA, PLP and BRK. -/

namespace Sys2Proof.Machine

/-! ## Clearing a flag (R300 to R303) -/

/-- Writing 0 to a flag keeps every bit outside its mask. -/
theorem putFlag_false (f : Flag) (p : Byte) : putFlag f false p = p &&& ~~~f.mask := BitVec.or_zero

/-- An instruction whose handler clears the flag `f`. -/
theorem runsTo_clearFlag {i : Instr} {bytes : List Byte} {s : State} (f : Flag)
    (hi : handlerOf i.mnemonic i.operand (s.advance 1) = ((s.advance 1).setFlag f false, .advance))
    (hdecode : ∀ rest, decode (bytes ++ rest) = .ok i rest) :
    RunsTo i bytes s { s with p := s.p &&& ~~~f.mask, pc := s.pc + BitVec.ofNat 16 i.mode.size } := by
  rw [← putFlag_false]
  exact runsTo_of_handler (t := s.setFlag f false) hdecode hi

/-- Settles O40: each instruction clears its flag, whose mask the rule's constant leaves out. -/
theorem flagsCleared : Obligations.FlagsCleared := by
  unfold Obligations.FlagsCleared
  intro s
  exact ⟨runsTo_clearFlag .C rfl Laws.DecodeEncode.clc, runsTo_clearFlag .D rfl Laws.DecodeEncode.cld,
    runsTo_clearFlag .I rfl Laws.DecodeEncode.cli, runsTo_clearFlag .V rfl Laws.DecodeEncode.clv⟩

/-! ## The stack (R304 to R307) -/

/-- PHA is one push of A. -/
theorem runsTo_pha (s : State) : RunsTo .pha [0x48] s ((s.push s.a).advance 1) :=
  runsTo_of_handler Laws.DecodeEncode.pha rfl

/-- PHP is one push of P. -/
theorem runsTo_php (s : State) : RunsTo .php [0x08] s ((s.push s.p).advance 1) :=
  runsTo_of_handler Laws.DecodeEncode.php rfl

/-- PLA is one pull into A, with N and Z from the byte. -/
theorem runsTo_pla (s : State) : RunsTo .pla [0x68] s (((s.pop.2.setA s.pop.1).setNZ s.pop.1).advance 1) :=
  runsTo_of_handler Laws.DecodeEncode.pla rfl

/-- PLP is one pull into P. -/
theorem runsTo_plp (s : State) : RunsTo .plp [0x28] s ((s.pop.2.setP s.pop.1).advance 1) :=
  runsTo_of_handler Laws.DecodeEncode.plp rfl

/-- Settles O41: a push stores at the stack byte `S` designates, a pull reads at the one above it. -/
theorem stackInstructions : Obligations.StackInstructions := by
  unfold Obligations.StackInstructions
  intro s top
  exact ⟨runsTo_pha s, runsTo_php s, runsTo_pla s, runsTo_plp s⟩

/-- Settles O43: the byte PLA pulls is the one PHA pushed, also where `S` wraps. -/
theorem phaThenPlaKeepsA : Obligations.PhaThenPlaKeepsA := by
  unfold Obligations.PhaThenPlaKeepsA
  intro s t u hs ht hu
  obtain rfl : (s.push s.a).advance 1 = t := Host.Outcome.next.inj ((runsTo_pha s).2.symm.trans ht)
  have hbyte : ((s.push s.a).advance 1).pop.1 = s.a := State.pop_push_byte hs s.a
  have hpla := (runsTo_pla ((s.push s.a).advance 1)).2
  rw [hbyte] at hpla
  obtain rfl := Host.Outcome.next.inj (hpla.symm.trans hu)
  exact ⟨rfl, rfl, rfl, State.pop_push_sp s s.a, rfl, s.advance_one_pc_add_one, rfl⟩

/-! ## BRK (R310) -/

/-- Settles O42: BRK's handler does nothing but ask for Halt, and there is no operand byte to move `PC` past. -/
theorem brkHalts : Obligations.BrkHalts := by
  unfold Obligations.BrkHalts
  intro s
  have hpc : s.pc + 1 + 0 = s.pc + 1 := BitVec.add_zero _
  refine ⟨Laws.DecodeEncode.brk, ?_⟩
  rw [← hpc]
  rfl

end Sys2Proof.Machine

/-! PROOFS. The end of a Step and of a Run (60_exceptions.md): every instruction completes, a Run stops at BRK or at an opcode
without an entry, and what the host operations refuse. -/

namespace Sys2Proof.Machine

/-! ## Every instruction completes (R333) -/

/-- Settles O10: a handler raises nothing, and only BRK's asks for Halt. -/
theorem everyInstructionCompletes : Obligations.EveryInstructionCompletes := by
  unfold Obligations.EveryInstructionCompletes
  intro i s
  have hnext : exec i s = .next (finish i.mode.size (handlerOf i.mnemonic i.operand (s.advance 1))) := exec_eq i s
  exact ⟨_, hnext, exec_status hnext⟩

/-! ## The last Step of a Run (R335, R336) -/

/-- The state in which BRK stops the CPU (R310). -/
def State.stopAtBrk (s : State) : State := (s.setPc (s.pc + 1)).setStatus .halted

/-- What a Step of a Ready CPU does to a Run: it stops without an error at the byte 0x00, it stops with one at a byte without an
entry, or it leaves the CPU Ready. -/
theorem step_ready_cases {s : State} (hs : s.status = .ready) :
    (s.readByte s.pc = 0x00 ∧ step s = .next s.stopAtBrk) ∨
      (s.readByte s.pc ∈ unimplementedOpcodes ∧ step s = .next (s.raiseUnimplemented (s.readByte s.pc))) ∨
      ∃ t, step s = .next t ∧ t.status = .ready := by
  obtain ⟨hl, hstep⟩ | ⟨i, rest, hd, hstep⟩ := step_ready hs
  · exact .inr (.inl ⟨(lookup_eq_none_iff_unimplemented _).1 hl, hstep⟩)
  · by_cases hi : i = .brk
    · subst hi
      exact .inl ⟨(opcode_eq_zero_iff_brk hd).2 rfl, hstep.trans (brkHalts s).2⟩
    · obtain ⟨t, ht, hstatus⟩ := everyInstructionCompletes i s
      exact .inr (.inr ⟨t, hstep.trans ht, by rw [hstatus, if_neg hi, hs]⟩)

/-- `r` is the answer of a Run whose last Step was the one in `u`. -/
def StopsIn (u : State) (r : Reply) : Prop :=
  (u.readByte u.pc = 0x00 ∧ r = reply u.stopAtBrk) ∨
    (u.readByte u.pc ∈ unimplementedOpcodes ∧
      r = ⟨u.raiseUnimplemented (u.readByte u.pc), .err (.unimplementedOpcode (u.readByte u.pc) u.pc)⟩)

/-- A loop whose first Step executes BRK answers success. -/
theorem runLoop_of_stopAtBrk {s : State} (h : step s = .next s.stopAtBrk) (n : Nat) :
    runLoop (n + 1) s = reply s.stopAtBrk := by
  rw [runLoop, h]
  rfl

/-- A loop that ends before its budget is spent reached, by Steps that are all next states, the state it stops in. -/
theorem runLoop_stopsIn {n : Nat} {s : State} (hs : s.status = .ready) (h : (runLoop n s).answer ≠ .budgetSpent) :
    ∃ k u, k < n ∧ Steps k s u ∧ u.status = .ready ∧ StopsIn u (runLoop n s) := by
  induction n generalizing s with
  | zero => exact absurd rfl h
  | succ n ih =>
    obtain ⟨hop, hstep⟩ | ⟨hop, hstep⟩ | ⟨t, hstep, ht⟩ := step_ready_cases hs
    · exact ⟨0, s, n.succ_pos, rfl, hs, .inl ⟨hop, runLoop_of_stopAtBrk hstep n⟩⟩
    · have hloop : runLoop (n + 1) s =
          ⟨s.raiseUnimplemented (s.readByte s.pc), .err (.unimplementedOpcode (s.readByte s.pc) s.pc)⟩ := by
        rw [runLoop, hstep]; rfl
      exact ⟨0, s, n.succ_pos, rfl, hs, .inr ⟨hop, hloop⟩⟩
    · have hloop : runLoop (n + 1) s = runLoop n t := by simp only [runLoop, hstep, ht]
      rw [hloop] at h ⊢
      obtain ⟨k, u, hk, hsteps, hu, hstop⟩ := ih ht h
      exact ⟨k + 1, u, Nat.succ_lt_succ hk, ⟨t, hstep, hsteps⟩, hu, hstop⟩

/-- A Run that answers success or an error stopped so, from the CPU made Ready (D13). -/
theorem run_stopsIn {n : Nat} {s : State} {r : Reply} (h : run n s = r) (hr : r.answer = .ok ∨ ∃ e, r.answer = .err e) :
    ∃ k u, k < n ∧ Steps k (s.setStatus .ready) u ∧ u.status = .ready ∧ StopsIn u r := by
  have hloop : runLoop n (s.setStatus .ready) = r := run_loop h hr
  have hspent : r.answer ≠ .budgetSpent := by
    intro hspent
    simp [hspent] at hr
  subst hloop
  exact runLoop_stopsIn rfl hspent

/-- Settles O56: of the two ways a Run stops, only BRK's answers success. -/
theorem runEndsWellOnlyAtBrk : Obligations.RunEndsWellOnlyAtBrk := by
  unfold Obligations.RunEndsWellOnlyAtBrk
  intro n s t h
  obtain ⟨k, u, hk, hsteps, hu, ⟨hop, hr⟩ | ⟨-, hr⟩⟩ := run_stopsIn h (.inl rfl)
  · exact ⟨k, u, hk, hsteps, hu, hop, congrArg Reply.state hr⟩
  · cases hr

/-- Settles O57: of the two ways a Run stops, only the opcode without an entry answers an error. -/
theorem runEndsInErrorOnlyAtUnimplementedOpcode : Obligations.RunEndsInErrorOnlyAtUnimplementedOpcode := by
  unfold Obligations.RunEndsInErrorOnlyAtUnimplementedOpcode
  intro n s t e h
  obtain ⟨k, u, hk, hsteps, hu, ⟨-, hr⟩ | ⟨hop, hr⟩⟩ := run_stopsIn h (.inr ⟨e, rfl⟩)
  · cases hr
  · cases hr
    exact ⟨k, u, hk, hsteps, hu, hop, rfl, rfl⟩

/-! ## What is refused (R340) -/

/-- An operation refused for the reason the run status records changes nothing (log entry 7). -/
theorem refuse_recorded {s : State} {reason : RefuseReason} (h : s.status = .refused reason) :
    refuse reason s = ⟨s, .refused (.hostOperation reason)⟩ := by
  have hsame : s.setStatus (.refused reason) = s := by rw [← h]; rfl
  rw [refuse, hsame]

/-- LoadAndReset is LoadROM alone unless LoadROM succeeds (R371). -/
theorem loadAndReset_of_not_ok {image : List Byte} {s : State} (h : (loadROM image s).answer ≠ .ok) :
    loadAndReset image s = loadROM image s := by
  unfold loadAndReset
  cases ha : (loadROM image s).answer with
  | ok => exact absurd ha h
  | err | refused | budgetSpent => simp only [ha]

/-- LoadAndReset of an image that LoadROM loads is Reset of what LoadROM left (R371). -/
theorem loadAndReset_of_ok {image : List Byte} {s t : State} (h : loadROM image s = ⟨t, .ok⟩) :
    loadAndReset image s = resetCPU t := by
  simp only [loadAndReset, h]

/-- LoadAndReset is refused when LoadROM is. -/
theorem loadAndReset_of_refused {image : List Byte} {s t : State} {r : Refusal} (h : loadROM image s = ⟨t, .refused r⟩) :
    loadAndReset image s = ⟨t, .refused r⟩ := by
  have hanswer : (loadROM image s).answer ≠ .ok := by rw [h]; exact nofun
  rw [loadAndReset_of_not_ok hanswer, h]

/-- Settles O59: each operation looks at the run status first. -/
theorem refusalsAndRunAgain : Obligations.RefusalsAndRunAgain := by
  unfold Obligations.RefusalsAndRunAgain
  intro s n image refusedWith
  refine ⟨fun op addr h => ?faulted, fun h => ?loadFailed, fun r h => ?refused, fun h => ?halted⟩
  case faulted => rw [run, h]; rfl
  case loadFailed =>
    have hload : loadROM image s = refusedWith .loadAfterLoadFailure := by rw [loadROM, h]; rfl
    exact ⟨by rw [run, h]; rfl, by rw [resetCPU, h]; rfl, hload, loadAndReset_of_refused hload⟩
  case refused =>
    have hload : loadROM image s = ⟨s, .refused (.hostOperation r)⟩ := by simp only [loadROM, h, refuse_recorded h]
    exact ⟨by simp only [run, h, refuse_recorded h], by simp only [resetCPU, h, refuse_recorded h], hload,
      loadAndReset_of_refused hload⟩
  case halted => rw [run, h]; rfl

end Sys2Proof.Machine

/-! PROOFS. NewCPU, LoadROM, Reset, LoadAndReset and Poke (70_reset_and_hazards.md). -/

namespace Sys2Proof.Machine

/-! ## Reset (R369, R370) -/

/-- Settles O52: the three run statuses are the usable ones. -/
theorem resetClearsRegistersAndLoadsPc : Obligations.ResetClearsRegistersAndLoadsPc := by
  unfold Obligations.ResetClearsRegistersAndLoadsPc
  intro s h
  have husable : Usable s = true := by
    obtain h | h | ⟨op, addr, h⟩ := h
    all_goals rw [Usable, h]
  exact resetCPU_usable husable

/-! ## NewCPU (R360) -/

/-- Settles O51: memory lists no byte, so the byte at `PC` is BRK's. -/
theorem newCpuIsAllZeroAndHaltsAtOnce : Obligations.NewCpuIsAllZeroAndHaltsAtOnce := by
  unfold Obligations.NewCpuIsAllZeroAndHaltsAtOnce
  have hreset : resetCPU newCPU = ⟨State.reset, .ok⟩ := resetClearsRegistersAndLoadsPc newCPU (.inl rfl)
  have hstep : step newCPU = .next newCPU.stopAtBrk := (step_of_decode3 rfl rfl).trans (brkHalts newCPU).2
  refine ⟨rfl, rfl, rfl, rfl, rfl, rfl, fun _ => rfl, rfl, rfl, hreset, runLoop_of_stopAtBrk hstep⟩

/-! ## LoadROM (R361 to R367) -/

/-- A usable CPU with the image at 0x8000 and then the reset vector written (R366, R367). -/
def State.loaded (s : State) (image : List Byte) : State :=
  (s.copy Config.romBase image).writeWord Config.resetVector Config.romEntry

/-- LoadROM of an image that fits. -/
theorem loadROM_fits {s : State} (hs : Usable s = true) {image : List Byte} (hfit : image.length ≤ 32768) :
    loadROM image s = reply (s.loaded image) := by
  have hsize : ¬ Config.largestImage < image.length := Nat.not_lt.2 (hfit.trans (by decide))
  have hroom : ¬ Config.largestFit < image.length := Nat.not_lt.2 hfit
  rw [loadROM_usable hs, loadImage, if_neg hsize, if_neg hroom, State.loaded]

/-- LoadROM of an image that is too large (R362). -/
theorem loadROM_tooLarge {s : State} (hs : Usable s = true) {image : List Byte} (hsize : 65536 < image.length) :
    loadROM image s = ⟨lostCPU image s, .err .romTooLarge⟩ := by
  rw [loadROM_usable hs, loadImage]
  exact if_pos hsize

/-- LoadROM of an image that passes the size check and does not fit (R363). -/
theorem loadROM_doesNotFit {s : State} (hs : Usable s = true) {image : List Byte} (hroom : 32768 < image.length)
    (hsize : image.length ≤ 65536) : loadROM image s = refuse .imageDoesNotFit s := by
  have hlargest : ¬ Config.largestImage < image.length := Nat.not_lt.2 hsize
  rw [loadROM_usable hs, loadImage, if_neg hlargest]
  exact if_pos hroom

/-- A load writes memory only. -/
theorem State.loaded_eq (s : State) (image : List Byte) : s.loaded image = s.setMem (s.loaded image).mem := by
  rw [State.loaded, State.copy_eq]
  rfl

/-- A byte after a load that fits: the vector's, the image's, or what was there. -/
theorem State.readByte_loaded {s : State} (hs : Canonical s) {image : List Byte} (hfit : image.length ≤ 32768) (b : Addr) :
    (s.loaded image).readByte b =
      if b = 0xFFFC then 0x00
      else if b = 0xFFFD then 0x80
      else if h : 0x8000 ≤ b.toNat ∧ b.toNat - 0x8000 < image.length then image[b.toNat - 0x8000]
      else s.readByte b := by
  have hend : Config.romBase.toNat + image.length ≤ 65536 := Nat.add_le_add_left hfit 32768
  rw [State.loaded, State.readByte_writeWord (State.copy_wf hs ..), State.readByte_copy hs _ _ hend]
  by_cases hlow : b = 0xFFFC
  · subst hlow
    rfl
  · have hvector : ¬ b = Config.resetVector := hlow
    rw [if_neg hvector, if_neg hlow]
    rfl

/-- Settles O53: the load as a whole, and each byte after it. -/
theorem loadRomPlacesImage : Obligations.LoadRomPlacesImage := by
  unfold Obligations.LoadRomPlacesImage
  intro s image hs husable hfit
  have hload : loadROM image s = ⟨s.setMem (s.loaded image).mem, .ok⟩ := by
    rw [loadROM_fits husable hfit, ← State.loaded_eq, reply]
  exact ⟨_, hload, State.readByte_loaded hs hfit⟩

/-- Settles O54: which branch of the size check the image takes; LoadAndReset stops where LoadROM does not succeed. -/
theorem loadRomSizeChecks : Obligations.LoadRomSizeChecks := by
  unfold Obligations.LoadRomSizeChecks
  intro s image hs
  refine ⟨fun hsize => ?tooLarge, fun hroom hsize => ?doesNotFit⟩
  case tooLarge =>
    have hload := loadROM_tooLarge hs hsize
    have hreset : loadAndReset image s = loadROM image s := loadAndReset_of_not_ok (by rw [hload]; exact nofun)
    exact ⟨by rw [hload], by rw [hload]; rfl, hreset⟩
  case doesNotFit =>
    have hload := loadROM_doesNotFit hs hroom hsize
    exact ⟨hload, loadAndReset_of_not_ok (by rw [hload]; exact nofun)⟩

/-! ## LoadAndReset (R371, R372) -/

/-- Settles O55: LoadROM of a new CPU leaves the vector that Reset then reads. -/
theorem loadAndResetBoots : Obligations.LoadAndResetBoots := by
  unfold Obligations.LoadAndResetBoots
  intro image hfit
  obtain ⟨m, hload, hread⟩ := loadRomPlacesImage newCPU image Memory.reset_wf rfl hfit
  have hlow : (newCPU.setMem m).readByte 0xFFFC = 0x00 := (hread 0xFFFC).trans (if_pos rfl)
  have hhigh : (newCPU.setMem m).readByte 0xFFFD = 0x80 := (hread 0xFFFD).trans ((if_neg (by decide)).trans (if_pos rfl))
  have hvector : (newCPU.setMem m).readWord 0xFFFC = 0x8000 := congrArg₂ wordOf hhigh hlow
  have hreset : loadAndReset image newCPU = resetCPU (newCPU.setMem m) := loadAndReset_of_ok hload
  refine ⟨m, ?_, hread⟩
  rw [hreset, resetClearsRegistersAndLoadsPc _ (.inl rfl), hvector]
  rfl

/-! ## Poke (R377) -/

/-- Settles O60: a Poke has an effect exactly on a Ready CPU, and its effect is one `put`. -/
theorem pokeSetsOneThing : Obligations.PokeSetsOneThing := by
  unfold Obligations.PokeSetsOneThing
  intro s v w
  refine ⟨fun h => ?ready, fun h g => ?other⟩
  case ready =>
    have hput : ∀ g, poke g s = some (s.put g) := fun g => poke_eq_some.2 ⟨h, rfl⟩
    exact ⟨hput _, hput _, hput _, hput _, hput _, hput _, hput _⟩
  case other => exact Option.eq_none_iff_forall_ne_some.2 fun t ht => h (poke_eq_some.1 ht).1

end Sys2Proof.Machine
